-- ==== Sys2Proof/Word.lean ====
section
/-! DEFINITION. The word types: every quantity of the bridge is an unsigned byte (spec/00_scope.md R7). -/

namespace Sys2Proof

/-- A byte: an unsigned integer 0..255, bit 0 the least significant (R7). -/
abbrev Byte := BitVec 8

/-- A 7-bit I2C device address (R6 `DEV_ADDR`, R69). -/
abbrev DevAddr := BitVec 7

end Sys2Proof
end

