-- ==== Sys2Proof/Config.lean ====
section
/-! DEFINITION. What an implementation fixes: the parameters of spec/00_scope.md R6, the constants of the controller's
command set (spec/30_encoding.md R100, R101) among them, and the model's free values. -/

namespace Sys2Proof

/-- The bus's answer to one write (R9, R67). -/
inductive Ack where
  | ack
  | nack
  deriving DecidableEq, Repr, Inhabited

/-- The `CFG` straps, sampled at reset (10_state.md R23, R24): the geometry and address given at construction, the one
configurable option (R2). -/
structure Straps where
  devAddr : DevAddr
  lines   : Byte
  cols    : Byte
  deriving DecidableEq, Repr

/-- The HD44780 command and flag constants, the last row of R6: the command bytes of R100 and the flags of R101 that are
ORed into them. -/
structure Codes where
  clearDisplay   : Byte
  returnHome     : Byte
  entryModeSet   : Byte
  displayControl : Byte
  cursorShift    : Byte
  functionSet    : Byte
  setCgramAddr   : Byte
  setDdramAddr   : Byte
  /-- 8-bit interface (`FUNC.DL`): only the recovery writes' nibble has it (41_init.md R153). -/
  eightBit       : Byte
  /-- 4-bit interface (`FUNC.DL` = 0). -/
  fourBit        : Byte
  /-- Line count two (`FUNC.N`). -/
  twoLines       : Byte
  /-- Font 5x10 (`FUNC.F`): no rule of the bridge sets it (R151). -/
  font5x10       : Byte
  /-- Display on (`CTRL.D`). -/
  displayOn      : Byte
  /-- Cursor on (`CTRL.C`). -/
  cursorOn       : Byte
  /-- Blink on (`CTRL.B`). -/
  blinkOn        : Byte
  /-- Left to right (`ENTRY.ID`). -/
  leftToRight    : Byte
  /-- Autoscroll (`ENTRY.SH`). -/
  autoscroll     : Byte
  /-- `DISPLAYMOVE` of CURSORSHIFT. -/
  displayMove    : Byte
  /-- `MOVERIGHT` of CURSORSHIFT. -/
  moveRight      : Byte
  /-- `MOVELEFT` of CURSORSHIFT. -/
  moveLeft       : Byte
  deriving DecidableEq, Repr

/-- The parameters of R6 that have a default. The model takes them as arguments: they stand in the state, no
step writes them, and a claim about every state is a claim about every value of them (log entry 2).
Times are in nanoseconds. `T_POWER`, how long the host waits after power-up before INIT, is a host duty that the bridge
neither measures nor reads (70_reset_and_hazards.md R283); `RW_MASK` is set by no rule (40_sequencer.md R131). -/
structure Params where
  rsMask    : Byte
  rwMask    : Byte
  enMask    : Byte
  blMask    : Byte
  tEn       : Nat
  tCmd      : Nat
  tInit1    : Nat
  tInit2    : Nat
  tInit3    : Nat
  tClear    : Nat
  tHome     : Nat
  tPower    : Nat
  initCtrl  : BitVec 3
  initEntry : BitVec 2
  codes     : Codes
  deriving DecidableEq, Repr

/-- The values of R100 and R101 (92_eei_decisions.md D12). -/
def Config.codes : Codes where
  clearDisplay   := 0x01
  returnHome     := 0x02
  entryModeSet   := 0x04
  displayControl := 0x08
  cursorShift    := 0x10
  functionSet    := 0x20
  setCgramAddr   := 0x40
  setDdramAddr   := 0x80
  eightBit       := 0x10
  fourBit        := 0x00
  twoLines       := 0x08
  font5x10       := 0x04
  displayOn      := 0x04
  cursorOn       := 0x02
  blinkOn        := 0x01
  leftToRight    := 0x02
  autoscroll     := 0x01
  displayMove    := 0x08
  moveRight      := 0x04
  moveLeft       := 0x00

/-- The defaults of R6 (92_eei_decisions.md D11, D12, D15, D16, D29). -/
def Config.params : Params where
  rsMask    := 0x01
  rwMask    := 0x02
  enMask    := 0x04
  blMask    := 0x08
  tEn       := 1000
  tCmd      := 50000
  tInit1    := 4100000
  tInit2    := 4100000
  tInit3    := 150000
  tClear    := 2000000
  tHome     := 2000000
  tPower    := 50000000
  initCtrl  := 0b100
  initEntry := 0b10
  codes     := Config.codes

/-- `DEV_ADDR` is OPEN (R6, D25): no value is chosen. DESIGN CHOICE, log entry 1, safe. -/
opaque Config.devAddr : DevAddr

/-- `LINES` is OPEN (R6, D26): no value is chosen. DESIGN CHOICE, log entry 1, safe. -/
opaque Config.lines : Byte

/-- `COLS` is OPEN (R6, D26): no value is chosen. DESIGN CHOICE, log entry 1, safe. -/
opaque Config.cols : Byte

/-- The straps of this bridge. -/
def Config.straps : Straps := ⟨Config.devAddr, Config.lines, Config.cols⟩

/-- The `n`-th answer of the bus that the environment has not lined up: a free draw
(20_memory.md R67, 92_eei_decisions.md D10). DESIGN CHOICE, log entry 4, safe. -/
opaque Config.busAnswer : Nat → Ack

/-! The minima of R6. -/

/-- `T_EN` is at least 450 ns. -/
def Config.minEn : Nat := 450

/-- `T_CMD` is at least 37 us. -/
def Config.minCmd : Nat := 37000

/-- `T_INIT1` and `T_INIT2` are at least 4.1 ms. -/
def Config.minInit12 : Nat := 4100000

/-- `T_INIT3` is at least 150 us. -/
def Config.minInit3 : Nat := 150000

/-- `T_CLEAR` and `T_HOME` are at least 2 ms. -/
def Config.minClear : Nat := 2000000

/-- Every time parameter meets its minimum (R6). -/
abbrev Params.legal (p : Params) : Prop :=
  Config.minEn ≤ p.tEn ∧ Config.minCmd ≤ p.tCmd ∧ Config.minInit12 ≤ p.tInit1 ∧ Config.minInit12 ≤ p.tInit2 ∧
    Config.minInit3 ≤ p.tInit3 ∧ Config.minClear ≤ p.tClear ∧ Config.minClear ≤ p.tHome

/-- The masks are those of the expander byte's layout (30_encoding.md R98). -/
abbrev Params.wired (p : Params) : Prop :=
  p.enMask = 0x04 ∧ p.rwMask = 0x02 ∧ p.blMask = 0x08 ∧ p.rsMask = 0x01

/-- The controller's constants are those of R100 and R101. -/
abbrev Params.coded (p : Params) : Prop :=
  p.codes = Config.codes

end Sys2Proof
end

