-- ==== Sys2Proof/Syntax.lean ====
section
/-! DEFINITION. The requests of the bridge as syntax: one constructor per row of spec/opcode_table.json
(30_encoding.md R91, R92). -/

namespace Sys2Proof

/-- The eight pixel rows of a glyph, row 0 first (20_memory.md R63, R71). -/
structure Glyph where
  row0 : Byte
  row1 : Byte
  row2 : Byte
  row3 : Byte
  row4 : Byte
  row5 : Byte
  row6 : Byte
  row7 : Byte
  deriving DecidableEq, Repr

/-- The rows in index order. -/
def Glyph.rows (g : Glyph) : List Byte :=
  [g.row0, g.row1, g.row2, g.row3, g.row4, g.row5, g.row6, g.row7]

/-- One request (R91). Operands are whole bytes in the order of R93. -/
inductive Instr where
  /-- INIT, 0x01 (R150). -/
  | init
  /-- CLEAR, 0x02 (R160). -/
  | clear
  /-- HOME, 0x03 (R161). -/
  | home
  /-- SETPOS, 0x04 (R162). -/
  | setpos (line col : Byte)
  /-- DISPLAY, 0x05 (R165). -/
  | display
  /-- NODISPLAY, 0x06 (R166). -/
  | nodisplay
  /-- CURSOR, 0x07 (R167). -/
  | cursor
  /-- NOCURSOR, 0x08 (R168). -/
  | nocursor
  /-- BLINK, 0x09 (R169). -/
  | blink
  /-- NOBLINK, 0x0A (R170). -/
  | noblink
  /-- SCROLL_LEFT, 0x0B (R171). -/
  | scrollLeft
  /-- SCROLL_RIGHT, 0x0C (R172). -/
  | scrollRight
  /-- LEFT_TO_RIGHT, 0x0D (R173). -/
  | leftToRight
  /-- RIGHT_TO_LEFT, 0x0E (R174). -/
  | rightToLeft
  /-- AUTOSCROLL, 0x0F (R175). -/
  | autoscroll
  /-- NOAUTOSCROLL, 0x10 (R176). -/
  | noautoscroll
  /-- CREATECHAR, 0x11 (R200). -/
  | createchar (slot : Byte) (glyph : Glyph)
  /-- BACKLIGHT, 0x12 (R220). -/
  | backlight
  /-- NOBACKLIGHT, 0x13 (R221). -/
  | nobacklight
  /-- WRITE, 0x14 (R201). -/
  | write (c : Byte)
  /-- PRINTSTR, 0x15 (R202): the characters before the 0x00 terminator. -/
  | printstr (text : List Byte)
  /-- DRAW_HGRAPH, 0x16 (R222): four ignored operands. -/
  | drawHgraph (a0 a1 a2 a3 : Byte)
  /-- DRAW_VGRAPH, 0x17 (R223): four ignored operands. -/
  | drawVgraph (a0 a1 a2 a3 : Byte)
  deriving DecidableEq, Repr

end Sys2Proof
end

