-- ==== Sys2Proof/WellFormed.lean ====
section
/-! DEFINITION. Which terms of `Instr` are requests: the one bound that the types do not carry is that no
character of a PRINTSTR text is 0x00, the terminator (30_encoding.md R92, format FS). -/

namespace Sys2Proof

/-- Each character of the text is non-zero (R92). -/
def textOk (text : List Byte) : Bool :=
  text.all (fun c => c != 0)

/-- The request is well formed. No operand byte value is reserved (R96), so every other request is. -/
def Instr.wf : Instr → Bool
  | .init => true
  | .clear => true
  | .home => true
  | .setpos _ _ => true
  | .display => true
  | .nodisplay => true
  | .cursor => true
  | .nocursor => true
  | .blink => true
  | .noblink => true
  | .scrollLeft => true
  | .scrollRight => true
  | .leftToRight => true
  | .rightToLeft => true
  | .autoscroll => true
  | .noautoscroll => true
  | .createchar _ _ => true
  | .backlight => true
  | .nobacklight => true
  | .write _ => true
  | .printstr text => textOk text
  | .drawHgraph _ _ _ _ => true
  | .drawVgraph _ _ _ _ => true

end Sys2Proof
end

