-- ==== Sys2Proof/Decode.lean ====
section
/-! DEFINITION. The request encoding (spec/30_encoding.md section 1): the decoder, total on any bytes and rejecting
by name, and after it the encoder. -/

namespace Sys2Proof

/-- Why bytes are no request. -/
inductive DecodeError where
  /-- There is no byte. -/
  | empty
  /-- The opcode byte is 0x00 or 0x18 to 0xFF (R96). -/
  | reserved (op : Byte)
  /-- The bytes end before the request does (R92). -/
  | truncated (op : Byte)
  deriving DecidableEq, Repr

/-- `PRINTSTR`'s opcode byte, the one opcode whose length is not fixed (R91, R97). -/
def opPrintstr : Byte := 0x15

/-- Opcode bytes 0x00 and 0x18 to 0xFF are reserved (R96). -/
def isReserved (op : Byte) : Bool :=
  op == 0 || decide (0x18 ≤ op.toNat)

/-- The length in bytes that R91 gives an opcode byte: a reserved byte is consumed alone; PRINTSTR, whose length
is n + 2, is never asked for. -/
def requestLength (op : Byte) : Nat :=
  match op.toNat with
  | 0x04 => 3
  | 0x11 => 10
  | 0x14 => 2
  | 0x16 => 5
  | 0x17 => 5
  | _ => 1

/-- PRINTSTR's characters: the bytes before the first 0x00, and the bytes after it (R97); none where there is no
0x00. -/
def splitText : List Byte → Option (List Byte × List Byte)
  | [] => none
  | b :: rest =>
    if b = 0 then some ([], rest)
    else
      match splitText rest with
      | some (text, after) => some (b :: text, after)
      | none => none

/-- The request with opcode byte `op` that the bytes after it complete, and the bytes after the request
(R91 to R97). -/
def decodeAfter (op : Byte) (rest : List Byte) : Except DecodeError (Instr × List Byte) :=
  match op.toNat with
  | 0x01 => .ok (.init, rest)
  | 0x02 => .ok (.clear, rest)
  | 0x03 => .ok (.home, rest)
  | 0x04 =>
    match rest with
    | line :: col :: after => .ok (.setpos line col, after)
    | _ => .error (.truncated op)
  | 0x05 => .ok (.display, rest)
  | 0x06 => .ok (.nodisplay, rest)
  | 0x07 => .ok (.cursor, rest)
  | 0x08 => .ok (.nocursor, rest)
  | 0x09 => .ok (.blink, rest)
  | 0x0A => .ok (.noblink, rest)
  | 0x0B => .ok (.scrollLeft, rest)
  | 0x0C => .ok (.scrollRight, rest)
  | 0x0D => .ok (.leftToRight, rest)
  | 0x0E => .ok (.rightToLeft, rest)
  | 0x0F => .ok (.autoscroll, rest)
  | 0x10 => .ok (.noautoscroll, rest)
  | 0x11 =>
    match rest with
    | slot :: r0 :: r1 :: r2 :: r3 :: r4 :: r5 :: r6 :: r7 :: after =>
      .ok (.createchar slot ⟨r0, r1, r2, r3, r4, r5, r6, r7⟩, after)
    | _ => .error (.truncated op)
  | 0x12 => .ok (.backlight, rest)
  | 0x13 => .ok (.nobacklight, rest)
  | 0x14 =>
    match rest with
    | c :: after => .ok (.write c, after)
    | _ => .error (.truncated op)
  | 0x15 =>
    match splitText rest with
    | some (text, after) => .ok (.printstr text, after)
    | none => .error (.truncated op)
  | 0x16 =>
    match rest with
    | a0 :: a1 :: a2 :: a3 :: after => .ok (.drawHgraph a0 a1 a2 a3, after)
    | _ => .error (.truncated op)
  | 0x17 =>
    match rest with
    | a0 :: a1 :: a2 :: a3 :: after => .ok (.drawVgraph a0 a1 a2 a3, after)
    | _ => .error (.truncated op)
  | _ => .error (.reserved op)

/-- The request that the bytes begin with, and the bytes after it. -/
def decode : List Byte → Except DecodeError (Instr × List Byte)
  | [] => .error .empty
  | op :: rest => decodeAfter op rest

/-- The opcode byte of a request (R91). -/
def Instr.opcode : Instr → Byte
  | .init => 0x01
  | .clear => 0x02
  | .home => 0x03
  | .setpos _ _ => 0x04
  | .display => 0x05
  | .nodisplay => 0x06
  | .cursor => 0x07
  | .nocursor => 0x08
  | .blink => 0x09
  | .noblink => 0x0A
  | .scrollLeft => 0x0B
  | .scrollRight => 0x0C
  | .leftToRight => 0x0D
  | .rightToLeft => 0x0E
  | .autoscroll => 0x0F
  | .noautoscroll => 0x10
  | .createchar _ _ => 0x11
  | .backlight => 0x12
  | .nobacklight => 0x13
  | .write _ => 0x14
  | .printstr _ => 0x15
  | .drawHgraph _ _ _ _ => 0x16
  | .drawVgraph _ _ _ _ => 0x17

/-- The operand bytes of a request, in the order of R92 and R93; PRINTSTR's end with the terminator. -/
def Instr.operands : Instr → List Byte
  | .init => []
  | .clear => []
  | .home => []
  | .setpos line col => [line, col]
  | .display => []
  | .nodisplay => []
  | .cursor => []
  | .nocursor => []
  | .blink => []
  | .noblink => []
  | .scrollLeft => []
  | .scrollRight => []
  | .leftToRight => []
  | .rightToLeft => []
  | .autoscroll => []
  | .noautoscroll => []
  | .createchar slot glyph => slot :: glyph.rows
  | .backlight => []
  | .nobacklight => []
  | .write c => [c]
  | .printstr text => text ++ [0x00]
  | .drawHgraph a0 a1 a2 a3 => [a0, a1, a2, a3]
  | .drawVgraph a0 a1 a2 a3 => [a0, a1, a2, a3]

/-- The bytes of a request (R90, R92). -/
def encode (i : Instr) : List Byte :=
  i.opcode :: i.operands

/-- Byte `k` of a word whose bit 0 is bit 0 of the first byte, with every bit from `nbits` up read as 0. -/
def tableByte (nbits w k : Nat) : Byte :=
  BitVec.ofNat 8 ((w % 2 ^ nbits) >>> (8 * k))

/-- The bytes of a table word, followed by enough bytes of zeros for the longest fixed-length request and for
PRINTSTR's terminator. -/
def tableBytes (nbits w : Nat) : List Byte :=
  (List.range ((nbits + 7) / 8 + 10)).map (tableByte nbits w)

/-- The request that the decoder reads from a word of spec/opcode_table.json's numbering. -/
def decodeTableWord (nbits w : Nat) : Option Instr :=
  match decode (tableBytes nbits w) with
  | .ok (i, _) => some i
  | .error _ => none

end Sys2Proof
end

