-- ==== Sys2Proof/Machine/State.lean ====
section
/-! DEFINITION. The state of the bridge (spec/10_state.md), its reset value (70_reset_and_hazards.md R280), and the
reasons a step can stop. -/

namespace Sys2Proof.Machine

/-- One event of the trace (R36): a bus write with its answer, or a delay of at least `ns` nanoseconds. -/
inductive Event where
  | w (addr : DevAddr) (data : Byte) (answer : Ack)
  | d (ns : Nat)
  deriving DecidableEq, Repr

/-- `META` (R31). -/
inductive MetaState where
  | uninit
  | oper
  deriving DecidableEq, Repr

/-- `ASPACE` (R33). -/
inductive Aspace where
  | unknown
  | ddram
  | cgram
  deriving DecidableEq, Repr

/-- What the sequencer executes in `RX = EXEC`: a decoded request, or one character of PRINTSTR (R34, R203). -/
inductive Job where
  | request (i : Instr)
  | printstrChar (c : Byte)
  deriving DecidableEq, Repr

/-- `ret` of `RX = EXEC`: the decoder state to return to (R34). -/
inductive Ret where
  | idle
  | stream
  deriving DecidableEq, Repr

/-- `RX`, the request decoder state (R34). -/
inductive Rx where
  | idle
  | collect (op : Byte) (buf : List Byte) (k : Nat)
  | stream
  | exec (job : Job) (ret : Ret)
  deriving DecidableEq, Repr

/-- The sticky bits of `STATUS` (R32). The live bits BUSY and OPER are stored in `rx` and `metaState`. -/
structure Faults where
  buserr  : Bool
  illop   : Bool
  preinit : Bool
  reinit  : Bool
  cgstale : Bool
  deriving DecidableEq, Repr

/-- No fault recorded. -/
def Faults.none : Faults := ⟨false, false, false, false, false⟩

/-- The state of the bridge, with the environment's side of its ports as data. -/
structure State where
  /-- `DEV_ADDR` (R24). -/
  devAddr   : DevAddr
  /-- `LINES` (R24). -/
  lines     : Byte
  /-- `COLS` (R24), read by no rule (R25). -/
  cols      : Byte
  /-- The parameters of R6 that have a default; written by no step (log entry 2). -/
  par       : Params
  /-- `FUNC` (R26). -/
  func      : Byte
  /-- `CTRL` (R27). -/
  ctrl      : Byte
  /-- `ENTRY` (R28). -/
  entry     : Byte
  /-- `BL` (R29). -/
  bl        : Bool
  /-- `META` (R31). -/
  metaState : MetaState
  /-- The sticky bits of `STATUS` (R32). -/
  faults    : Faults
  /-- `ASPACE` (R33). -/
  aspace    : Aspace
  /-- `RX` (R34). -/
  rx        : Rx
  /-- `TR` (R36). -/
  tr        : List Event
  /-- The MODEL's own: the bytes that the host offers on `REQ` and the bridge has not taken (log entry 3). -/
  req       : List Byte
  /-- The MODEL's own: the bus answers that the environment has lined up (log entry 4). -/
  busIn     : List Ack
  /-- The MODEL's own: how many free answers have been drawn (log entry 4). -/
  draws     : Nat
  deriving DecidableEq, Repr

/-- Why the machine stops with a fault. The spec's own faults never stop it (60_exceptions.md R240): they are the
sticky bits of `faults`. -/
inductive Fault where
  /-- Raised by the request port when the bytes of a finished `COLLECT` are not exactly one request. No run reaches
  such a `COLLECT` state, and the spec gives it no meaning (log entry 5). Safe. -/
  | badRequest
  deriving DecidableEq, Repr

/-- Why an instruction has no meaning. -/
inductive Refusal where
  /-- Raised by `exec` for an instruction whose meaning is not written yet; no arm raises it now. Safe. -/
  | notModelled (mnemonic : String)
  deriving DecidableEq, Repr

/-- The bridge right after `RESET` with the given straps and parameters (R280): the geometry and address are those given
at construction (R2) and nothing is left unspecified by the spec; the model's own fields are empty and 0 (log entries 3
and 4). -/
def State.resetWith (st : Straps) (p : Params) : State where
  devAddr   := st.devAddr
  lines     := st.lines
  cols      := st.cols
  par       := p
  func      := 0x00
  ctrl      := 0x00
  entry     := 0x00
  bl        := false
  metaState := .uninit
  faults    := Faults.none
  aspace    := .unknown
  rx        := .idle
  tr        := []
  req       := []
  busIn     := []
  draws     := 0

/-- The bridge right after reset: the straps have no chosen value (log entry 1) and the parameters their defaults
(R6, log entry 2). -/
def State.reset : State := State.resetWith Config.straps Config.params

end Sys2Proof.Machine
end

