-- ==== Sys2Proof/Machine/Operands.lean ====
section
/-! DEFINITION. What the requests make of their operands (spec/30_encoding.md R94): the DDRAM address of SETPOS, the
CGRAM address of CREATECHAR, and the nibbles and mode of a sent byte. -/

namespace Sys2Proof.Machine

/-- The mode of a send: the value of RS (R10, R135). -/
inductive Mode where
  | command
  | data
  deriving DecidableEq, Repr

/-- The mode as the RS bit of an expander byte (R98). -/
def modeBit (p : Params) : Mode → Byte
  | .command => 0x00
  | .data => p.rsMask

/-- The high nibble, left in bits 7:4 (R135). -/
def highNibble (v : Byte) : Byte := v &&& 0xF0

/-- The low nibble, moved to bits 7:4 (R135). -/
def lowNibble (v : Byte) : Byte := (v <<< 4) &&& 0xF0

/-- The offset of a line: bits 1:0 of the operand choose it, bits 7:2 are ignored (20_memory.md R70). -/
def lineOffset (line : Byte) : Byte :=
  (if line.getLsbD 0 then 0x40 else 0x00) + (if line.getLsbD 1 then 0x14 else 0x00)

/-- SETPOS's address: modulo 256 (42_display_commands.md R162). -/
def ddramAddr (line col : Byte) : Byte := col + lineOffset line

/-- SETPOS's command byte: bit 7 of the address is absorbed by the OR (R162). -/
def setposByte (c : Codes) (line col : Byte) : Byte := c.setDdramAddr ||| ddramAddr line col

/-- The CGRAM address at which a glyph slot starts; bits 7:3 of the slot are ignored (R71, R200). -/
def cgramAddr (slot : Byte) : Byte := (slot &&& 0x07) <<< 3

/-- CREATECHAR's command byte (R200). -/
def createcharByte (c : Codes) (slot : Byte) : Byte := c.setCgramAddr ||| cgramAddr slot

end Sys2Proof.Machine
end

