-- ==== Sys2Proof/Machine/Ops.lean ====
section
/-! DEFINITION. The named operations over the state: raising a fault bit, the checks that begin a request, the bus
write and the delay (spec/00_scope.md R9, 20_memory.md R61 to R67, 60_exceptions.md). -/

namespace Sys2Proof.Machine

/-- The fault causes (R242). -/
inductive FaultCause where
  | buserr
  | illop
  | preinit
  | reinit
  | cgstale
  deriving DecidableEq, Repr

/-- The code of a fault is its `STATUS` bit number (R242). -/
def faultCode : FaultCause → Nat
  | .buserr => 2
  | .illop => 3
  | .preinit => 4
  | .reinit => 5
  | .cgstale => 6

/-- The sticky bits with one more set. -/
def markFault (x : FaultCause) (f : Faults) : Faults :=
  match x with
  | .buserr => { f with buserr := true }
  | .illop => { f with illop := true }
  | .preinit => { f with preinit := true }
  | .reinit => { f with reinit := true }
  | .cgstale => { f with cgstale := true }

/-- `raise Fault(X)`: set the sticky bit and go on (R241). The bridge has no other way of taking an exception, and no
return from one (R240, R251). -/
def raise (x : FaultCause) (s : State) : State :=
  { s with faults := markFault x s.faults }

/-- `PREINIT_CHECK` (R245). -/
def preinitCheck (s : State) : State :=
  if s.metaState = .uninit then raise .preinit s else s

/-- The REINIT check of INIT (R246). -/
def reinitCheck (s : State) : State :=
  if s.metaState = .oper then raise .reinit s else s

/-- `CGSTALE_CHECK` (R247). -/
def cgstaleCheck (s : State) : State :=
  if s.aspace = .cgram then raise .cgstale s else s

/-- The answer that the bus gives to the next write: the one the environment has lined up, or else a free draw
(R67, D10; log entry 4). -/
def nextAnswer (s : State) : Ack :=
  match s.busIn with
  | a :: _ => a
  | [] => Config.busAnswer s.draws

/-- The state once that answer has been given. -/
def takeAnswer (s : State) : State :=
  match s.busIn with
  | _ :: rest => { s with busIn := rest }
  | [] => { s with draws := s.draws + 1 }

/-- The state once the answers of `n` writes have been given. -/
def takeAnswers : Nat → State → State
  | 0, s => s
  | n + 1, s => takeAnswers n (takeAnswer s)

/-- `BusWrite(a, b)`, its effect on the state: the event `W(a, b, ack)` is appended, with the answer of
`nextAnswer` (R9, R65). It carries a single byte, one bit for each of the expander's 8 output lines (R2). -/
def busWrite (a : DevAddr) (b : Byte) (s : State) : State :=
  { takeAnswer s with tr := s.tr ++ [.w a b (nextAnswer s)] }

/-- `Delay(d)` (R9, R61). -/
def delay (ns : Nat) (s : State) : State :=
  { s with tr := s.tr ++ [.d ns] }

/-! Register writes, one for each register that a rule writes (10_state.md R39). -/

/-- `FUNC <- v` (R26). -/
def setFunc (v : Byte) (s : State) : State := { s with func := v }

/-- `CTRL <- v` (R27). -/
def setCtrl (v : Byte) (s : State) : State := { s with ctrl := v }

/-- `ENTRY <- v` (R28). -/
def setEntry (v : Byte) (s : State) : State := { s with entry := v }

/-- `BL <- v` (R29). -/
def setBl (v : Bool) (s : State) : State := { s with bl := v }

/-- `META <- v` (R31). -/
def setMeta (v : MetaState) (s : State) : State := { s with metaState := v }

/-- `ASPACE <- v` (R33). -/
def setAspace (v : Aspace) (s : State) : State := { s with aspace := v }

/-- `RX <- v` (R34). -/
def setRx (v : Rx) (s : State) : State := { s with rx := v }

/-- The bytes left on `REQ` once some have been taken (R34). -/
def setReq (v : List Byte) (s : State) : State := { s with req := v }

end Sys2Proof.Machine
end

