-- ==== Sys2Proof/Machine/Transmit.lean ====
section
/-! DEFINITION. The Expander Byte Writer, the Enable-Pulse Sequencer and the Nibble/Byte Transmitter
(spec/40_sequencer.md R130 to R135). Every `W` event comes from `expWrite`. -/

namespace Sys2Proof.Machine

/-- The backlight bit of an expander byte (R98, R130). -/
def backlightBit (s : State) : Byte := if s.bl then s.par.blMask else 0x00

/-- `ExpWrite(v)` (R130): `BL` is read at the moment of the write; a `NACK` raises BUSERR and the caller goes on. -/
def expWrite (v : Byte) (s : State) : State :=
  let written := busWrite s.devAddr (v ||| backlightBit s) s
  if nextAnswer s = .nack then raise .buserr written else written

/-- `Write4(v)` (R132): Enable high, wait, Enable low (the controller latches), settle. -/
def write4 (v : Byte) (s : State) : State :=
  let high := delay s.par.tEn (expWrite (v ||| s.par.enMask) s)
  delay s.par.tCmd (expWrite (v &&& ~~~s.par.enMask) high)

/-- `Send(v, mode)` (R135): the high nibble, then the low nibble, over the 4-bit interface (R2). -/
def send (v : Byte) (m : Mode) (s : State) : State :=
  write4 (lowNibble v ||| modeBit s.par m) (write4 (highNibble v ||| modeBit s.par m) s)

/-- `Send(v, mode)` of each byte in turn (R200). -/
def sendAll (m : Mode) : List Byte → State → State
  | [], s => s
  | v :: vs, s => sendAll m vs (send v m s)

end Sys2Proof.Machine
end

