-- ==== Sys2Proof/Machine/Backlight.lean ====
section
/-! DEFINITION. Backlight and compatibility requests (spec/44_backlight_and_compat.md). -/

namespace Sys2Proof.Machine

/-- `PREINIT_CHECK; BL <- …; ExpWrite(0x00)`, with no delay after it (R220, R221, R226). -/
def writeBacklight (on : Bool) (s : State) : State :=
  expWrite 0x00 (setBl on (preinitCheck s))

/-- BACKLIGHT (R220). -/
def execBacklight (s : State) : Host.Outcome State Fault Refusal :=
  .next (writeBacklight true s)

/-- NOBACKLIGHT (R221). -/
def execNobacklight (s : State) : Host.Outcome State Fault Refusal :=
  .next (writeBacklight false s)

/-- DRAW_HGRAPH (R222): no check, no event, no state change, whatever the operands. -/
def execDrawHgraph (_ _ _ _ : Byte) (s : State) : Host.Outcome State Fault Refusal :=
  .next s

/-- DRAW_VGRAPH (R223): as R222. -/
def execDrawVgraph (_ _ _ _ : Byte) (s : State) : Host.Outcome State Fault Refusal :=
  .next s

end Sys2Proof.Machine
end

