-- ==== Sys2Proof/Machine/Flags.lean ====
section
/-! DEFINITION. The flag registers' computations (spec/10_state.md R26 to R28, 41_init.md R151, R152,
42_display_commands.md R164 to R176), `STATUS` as the host reads it (R32), and the readiness of `REQ` (R34). -/

namespace Sys2Proof.Machine

/-- Set the bits of a mask. -/
def setBits (mask r : Byte) : Byte := r ||| mask

/-- Clear the bits of a mask. -/
def clearBits (mask r : Byte) : Byte := r &&& ~~~mask

/-- INIT's `FUNC`: N iff `LINES >= 2`, DL = 0, F = 0 (R151). -/
def computedFunc (c : Codes) (lines : Byte) : Byte :=
  c.fourBit ||| (if 2 ≤ lines.toNat then c.twoLines else 0x00)

/-- INIT's `CTRL` (R152): bits 7:3 are 0. -/
def baselineCtrl (p : Params) : Byte := p.initCtrl.setWidth 8

/-- INIT's `ENTRY` (R152): bits 7:2 are 0. -/
def baselineEntry (p : Params) : Byte := p.initEntry.setWidth 8

/-- The FUNCTIONSET byte. -/
def functionSetByte (c : Codes) (func : Byte) : Byte := c.functionSet ||| func

/-- The DISPLAYCONTROL byte (R164). -/
def displayControlByte (c : Codes) (ctrl : Byte) : Byte := c.displayControl ||| ctrl

/-- The ENTRYMODESET byte (R173). -/
def entryModeByte (c : Codes) (entry : Byte) : Byte := c.entryModeSet ||| entry

/-- `STATUS.BUSY`, live: 1 while a request executes (R32, R34). -/
def busy (s : State) : Bool :=
  match s.rx with
  | .exec _ _ => true
  | _ => false

/-- `REQ` is ready for a byte iff `RX` is `IDLE`, `COLLECT` or `STREAM` (R34). -/
def ready (s : State) : Bool := !busy s

/-- `STATUS.OPER`, live: 1 iff `META = OPER` (R32). -/
def oper (s : State) : Bool := decide (s.metaState = .oper)

/-- One bit at its place in a byte. -/
def bitAt (n : Nat) (b : Bool) : Byte := if b then 1#8 <<< n else 0

/-- `STATUS` (R32): BUSY 0, OPER 1, BUSERR 2, ILLOP 3, PREINIT 4, REINIT 5, CGSTALE 6; bit 7 reads 0. -/
def State.status (s : State) : Byte :=
  bitAt 0 (busy s) ||| bitAt 1 (oper s) ||| bitAt 2 s.faults.buserr ||| bitAt 3 s.faults.illop |||
    bitAt 4 s.faults.preinit ||| bitAt 5 s.faults.reinit ||| bitAt 6 s.faults.cgstale

end Sys2Proof.Machine
end

