-- ==== Sys2Proof/Machine/Init.lean ====
section
/-! DEFINITION. INIT (spec/41_init.md) and the shared clear and entry/control sends it is made of. -/

namespace Sys2Proof.Machine

/-- The nibble 0x3 of a recovery write, as the byte 0x30: FUNCTIONSET with the 8-bit interface (R153, R101). -/
def recoveryByte (c : Codes) : Byte := c.functionSet ||| c.eightBit

/-- The nibble 0x2 of the switch, as the byte 0x20: FUNCTIONSET with the 4-bit interface (R154, R101),
the only one that the controller is driven in (R2). -/
def switchByte (c : Codes) : Byte := c.functionSet ||| c.fourBit

/-- One recovery write and the wait after it (R150, R153). -/
def recover (wait : Nat) (s : State) : State :=
  delay wait (write4 (recoveryByte s.par.codes) s)

/-- The three recovery writes and the switch to the 4-bit interface, one nibble each (R150, R153, R154). -/
def recovery (s : State) : State :=
  write4 (switchByte s.par.codes) (recover s.par.tInit3 (recover s.par.tInit2 (recover s.par.tInit1 s)))

/-- `FUNC <- …; Send(0x20 | FUNC, 0)` (R151). -/
def writeFunc (v : Byte) (s : State) : State :=
  send (functionSetByte s.par.codes v) .command (setFunc v s)

/-- `CTRL <- …; Send(0x08 | CTRL, 0)`, never split (R164). -/
def writeCtrl (v : Byte) (s : State) : State :=
  send (displayControlByte s.par.codes v) .command (setCtrl v s)

/-- `ENTRY <- …; Send(0x04 | ENTRY, 0)`, never split (R173). -/
def writeEntry (v : Byte) (s : State) : State :=
  send (entryModeByte s.par.codes v) .command (setEntry v s)

/-- `Send(0x01, 0); Delay(T_CLEAR); ASPACE <- DDRAM` (R150, R160). -/
def clearDisplay (s : State) : State :=
  setAspace .ddram (delay s.par.tClear (send s.par.codes.clearDisplay .command s))

/-- INIT (R150). -/
def execInit (s : State) : Host.Outcome State Fault Refusal :=
  let recovered := recovery (reinitCheck s)
  let lineMode := writeFunc (computedFunc s.par.codes s.lines) recovered
  let flagged := writeEntry (baselineEntry s.par) (writeCtrl (baselineCtrl s.par) lineMode)
  .next (setMeta .oper (clearDisplay flagged))

end Sys2Proof.Machine
end

