-- ==== Sys2Proof/Machine/Display.lean ====
section
/-! DEFINITION. Display, cursor and entry-mode requests (spec/42_display_commands.md). -/

namespace Sys2Proof.Machine

/-- A command that changes no register: `PREINIT_CHECK; Send(v, 0)`. -/
def sendCommand (v : Byte) (s : State) : State :=
  send v .command (preinitCheck s)

/-- The common form of the display control toggles (R164). -/
def updateCtrl (f : Byte → Byte) (s : State) : State :=
  writeCtrl (f s.ctrl) (preinitCheck s)

/-- The common form of the entry-mode requests (R173). -/
def updateEntry (f : Byte → Byte) (s : State) : State :=
  writeEntry (f s.entry) (preinitCheck s)

/-- The CURSORSHIFT byte that moves the display (R171, R172). -/
def shiftByte (c : Codes) (direction : Byte) : Byte := c.cursorShift ||| c.displayMove ||| direction

/-- CLEAR (R160). -/
def execClear (s : State) : Host.Outcome State Fault Refusal :=
  .next (clearDisplay (preinitCheck s))

/-- HOME (R161). -/
def execHome (s : State) : Host.Outcome State Fault Refusal :=
  .next (setAspace .ddram (delay s.par.tHome (sendCommand s.par.codes.returnHome s)))

/-- SETPOS (R162). -/
def execSetpos (line col : Byte) (s : State) : Host.Outcome State Fault Refusal :=
  .next (setAspace .ddram (sendCommand (setposByte s.par.codes line col) s))

/-- DISPLAY (R165). -/
def execDisplay (s : State) : Host.Outcome State Fault Refusal :=
  .next (updateCtrl (setBits s.par.codes.displayOn) s)

/-- NODISPLAY (R166). -/
def execNodisplay (s : State) : Host.Outcome State Fault Refusal :=
  .next (updateCtrl (clearBits s.par.codes.displayOn) s)

/-- CURSOR (R167). -/
def execCursor (s : State) : Host.Outcome State Fault Refusal :=
  .next (updateCtrl (setBits s.par.codes.cursorOn) s)

/-- NOCURSOR (R168). -/
def execNocursor (s : State) : Host.Outcome State Fault Refusal :=
  .next (updateCtrl (clearBits s.par.codes.cursorOn) s)

/-- BLINK (R169). -/
def execBlink (s : State) : Host.Outcome State Fault Refusal :=
  .next (updateCtrl (setBits s.par.codes.blinkOn) s)

/-- NOBLINK (R170). -/
def execNoblink (s : State) : Host.Outcome State Fault Refusal :=
  .next (updateCtrl (clearBits s.par.codes.blinkOn) s)

/-- SCROLL_LEFT (R171). -/
def execScrollLeft (s : State) : Host.Outcome State Fault Refusal :=
  .next (sendCommand (shiftByte s.par.codes s.par.codes.moveLeft) s)

/-- SCROLL_RIGHT (R172). -/
def execScrollRight (s : State) : Host.Outcome State Fault Refusal :=
  .next (sendCommand (shiftByte s.par.codes s.par.codes.moveRight) s)

/-- LEFT_TO_RIGHT (R173). -/
def execLeftToRight (s : State) : Host.Outcome State Fault Refusal :=
  .next (updateEntry (setBits s.par.codes.leftToRight) s)

/-- RIGHT_TO_LEFT (R174). -/
def execRightToLeft (s : State) : Host.Outcome State Fault Refusal :=
  .next (updateEntry (clearBits s.par.codes.leftToRight) s)

/-- AUTOSCROLL (R175). -/
def execAutoscroll (s : State) : Host.Outcome State Fault Refusal :=
  .next (updateEntry (setBits s.par.codes.autoscroll) s)

/-- NOAUTOSCROLL (R176). -/
def execNoautoscroll (s : State) : Host.Outcome State Fault Refusal :=
  .next (updateEntry (clearBits s.par.codes.autoscroll) s)

end Sys2Proof.Machine
end

