-- ==== Sys2Proof/Machine/Text.lean ====
section
/-! DEFINITION. Glyph programming and character data (spec/43_data_and_glyphs.md). -/

namespace Sys2Proof.Machine

/-- `PREINIT_CHECK; CGSTALE_CHECK; Send(c, 1)`: the body of WRITE, and `PRINTSTR_CHAR(c)` (R201, R203). -/
def writeChar (c : Byte) (s : State) : State :=
  send c .data (cgstaleCheck (preinitCheck s))

/-- The characters of a PRINTSTR in turn (R202). -/
def writeChars : List Byte → State → State
  | [], s => s
  | c :: cs, s => writeChars cs (writeChar c s)

/-- CREATECHAR (R200): its own eight data writes make no CGSTALE check. -/
def execCreatechar (slot : Byte) (glyph : Glyph) (s : State) : Host.Outcome State Fault Refusal :=
  let addressed := send (createcharByte s.par.codes slot) .command (preinitCheck s)
  .next (setAspace .cgram (sendAll .data glyph.rows addressed))

/-- WRITE (R201). -/
def execWrite (c : Byte) (s : State) : Host.Outcome State Fault Refusal :=
  .next (writeChar c s)

/-- PRINTSTR (R202): the check at the opcode byte, then each character. `RX` is the request port's
(Machine/Port.lean): it runs this meaning on the opcode byte, with the text received so far, which is empty, and
`writeChar` on each character as it comes; the text may have any length. -/
def execPrintstr (text : List Byte) (s : State) : Host.Outcome State Fault Refusal :=
  .next (writeChars text (preinitCheck s))

end Sys2Proof.Machine
end

