-- ==== Sys2Proof/Machine/Dispatch.lean ====
section
/-! DEFINITION. One arm per request (spec/30_encoding.md R91). `exec` performs the rule of a request; `RX` and
`REQ` are the request port's (Machine/Port.lean). -/

namespace Sys2Proof.Machine

def exec (i : Instr) (s : State) : Host.Outcome State Fault Refusal :=
  match i with
  | .init => Sys2Proof.Machine.execInit s
  | .clear => Sys2Proof.Machine.execClear s
  | .home => Sys2Proof.Machine.execHome s
  | .setpos line col => Sys2Proof.Machine.execSetpos line col s
  | .display => Sys2Proof.Machine.execDisplay s
  | .nodisplay => Sys2Proof.Machine.execNodisplay s
  | .cursor => Sys2Proof.Machine.execCursor s
  | .nocursor => Sys2Proof.Machine.execNocursor s
  | .blink => Sys2Proof.Machine.execBlink s
  | .noblink => Sys2Proof.Machine.execNoblink s
  | .scrollLeft => Sys2Proof.Machine.execScrollLeft s
  | .scrollRight => Sys2Proof.Machine.execScrollRight s
  | .leftToRight => Sys2Proof.Machine.execLeftToRight s
  | .rightToLeft => Sys2Proof.Machine.execRightToLeft s
  | .autoscroll => Sys2Proof.Machine.execAutoscroll s
  | .noautoscroll => Sys2Proof.Machine.execNoautoscroll s
  | .createchar slot glyph => Sys2Proof.Machine.execCreatechar slot glyph s
  | .backlight => Sys2Proof.Machine.execBacklight s
  | .nobacklight => Sys2Proof.Machine.execNobacklight s
  | .write c => Sys2Proof.Machine.execWrite c s
  | .printstr text => Sys2Proof.Machine.execPrintstr text s
  | .drawHgraph a0 a1 a2 a3 => Sys2Proof.Machine.execDrawHgraph a0 a1 a2 a3 s
  | .drawVgraph a0 a1 a2 a3 => Sys2Proof.Machine.execDrawVgraph a0 a1 a2 a3 s

end Sys2Proof.Machine
end

