-- ==== Sys2Proof/Machine/Port.lean ====
section
/-! DEFINITION. The request port (spec/30_encoding.md R95, 10_state.md R34): the decoder's transitions on a request
byte, the execution of `RX = EXEC`, and where an instruction that is to run next is placed. -/

namespace Sys2Proof.Machine

/-- The decoder state that `ret` names (R34). -/
def rxOf : Ret → Rx
  | .idle => .idle
  | .stream => .stream

/-- An outcome's next state with `RX` set. -/
def withRx (rx : Rx) : Host.Outcome State Fault Refusal → Host.Outcome State Fault Refusal
  | .next t => .next (setRx rx t)
  | .fault r => .fault r
  | .refused r => .refused r

/-- The rule of a job (R95, R203). -/
def execJob (job : Job) (s : State) : Host.Outcome State Fault Refusal :=
  match job with
  | .request i => exec i s
  | .printstrChar c => .next (writeChar c s)

/-- `RX <- EXEC(op, operands, IDLE)` for the bytes of a whole fixed-length request (R95). Bytes that are not exactly
one request stop the machine: no run comes here with such bytes (log entry 5). -/
def enterExec (bytes : List Byte) (s : State) : Host.Outcome State Fault Refusal :=
  match decode bytes with
  | .ok (i, []) => .next (setRx (.exec (.request i) .idle) s)
  | _ => .fault .badRequest

/-- The decoder on an opcode byte, `RX = IDLE` (R95). -/
def takeOpcode (b : Byte) (s : State) : Host.Outcome State Fault Refusal :=
  if isReserved b then .next (raise .illop s)
  else if b = opPrintstr then withRx .stream (exec (.printstr []) s)
  else if requestLength b = 1 then enterExec [b] s
  else .next (setRx (.collect b [] (requestLength b - 1)) s)

/-- The decoder on an operand byte, `RX = COLLECT(op, buf, k)` (R95). -/
def takeOperand (op : Byte) (buf : List Byte) (k : Nat) (b : Byte) (s : State) : Host.Outcome State Fault Refusal :=
  if k = 1 then enterExec (op :: (buf ++ [b])) s
  else .next (setRx (.collect op (buf ++ [b]) (k - 1)) s)

/-- The decoder on a byte in `RX = STREAM`: the terminator ends PRINTSTR, any other byte is a character (R95). -/
def takeStream (b : Byte) (s : State) : Host.Outcome State Fault Refusal :=
  if b = 0 then .next (setRx .idle s)
  else .next (setRx (.exec (.printstrChar b) .stream) s)

/-- Take the next byte from `REQ`, if the host offers one. Where it offers none, the bridge waits: nothing changes
(R34, R202; log entry 3). -/
def takeByte (take : Byte → State → Host.Outcome State Fault Refusal) (s : State) : Host.Outcome State Fault Refusal :=
  match s.req with
  | [] => .next s
  | b :: rest => take b (setReq rest s)

/-- One step of the sequencer (R34, R95): a request executes as one step, and a byte offered meanwhile waits. -/
def sequencerStep (s : State) : Host.Outcome State Fault Refusal :=
  match s.rx with
  | .idle => takeByte takeOpcode s
  | .collect op buf k => takeByte (takeOperand op buf k) s
  | .stream => takeByte takeStream s
  | .exec job ret => withRx (rxOf ret) (execJob job s)

/-- The state in which the next step runs the request that the bytes begin with: a fixed-length request stands
decoded in `RX = EXEC`, as the decoder leaves it after its last byte; PRINTSTR stands on `REQ`, since its meaning
begins on its opcode byte, and so do bytes that are no request (log entry 7). -/
def placeNext (bytes : List Byte) (s : State) : State :=
  match decode bytes with
  | .ok (.printstr text, _) => setRx .idle (setReq (encode (.printstr text) ++ s.req) s)
  | .ok (i, _) => setRx (.exec (.request i) .idle) s
  | .error _ => setRx .idle (setReq (bytes.take 1 ++ s.req) s)

end Sys2Proof.Machine
end

