-- ==== Sys2Proof/Machine/Step.lean ====
section
/-! DEFINITION. One step of the machine, and where an instruction that is to run next is placed. -/

namespace Sys2Proof.Machine

/-- One step of the bridge: the sequencer's (spec/10_state.md R22). -/
def step (s : State) : Host.Outcome State Fault Refusal :=
  sequencerStep s

/-- `s` with the instruction of a table word placed where the next step runs it (log entry 7). -/
def State.withFetchWord (s : State) (nbits w : Nat) : State :=
  placeNext (tableBytes nbits w) s

end Sys2Proof.Machine
end

