-- ==== Sys2Proof/Machine/Controller.lean ====
section
/-! DEFINITION. What the environment takes from the trace: the expander's outputs (spec/10_state.md R37,
20_memory.md R66), the controller's latches (40_sequencer.md R138), and the time that must pass (20_memory.md R61).
Nothing of the bridge reads them. -/

namespace Sys2Proof.Machine

/-- `EXP` after some events, from what it was before them (R37). -/
def expAfter (before : Option Byte) : List Event → Option Byte
  | [] => before
  | .w _ b .ack :: rest => expAfter (some b) rest
  | .w _ _ .nack :: rest => expAfter before rest
  | .d _ :: rest => expAfter before rest

/-- `EXP` (R37): the data byte of the last acknowledged write; none until there is one. -/
def State.exp (s : State) : Option Byte := expAfter none s.tr

/-- The expander's outputs after some events, where they are known: a `NACK` leaves them unknown (R66). -/
def outputsAfter (before : Option Byte) : List Event → Option Byte
  | [] => before
  | .w _ b .ack :: rest => outputsAfter (some b) rest
  | .w _ _ .nack :: rest => outputsAfter none rest
  | .d _ :: rest => outputsAfter before rest

/-- The expander's outputs, none where they are unknown (R66). -/
def State.outputs (s : State) : Option Byte := outputsAfter none s.tr

/-- What the controller takes at a falling edge of Enable: the nibble and RS (R138). -/
structure Latch where
  nibble : BitVec 4
  rs     : Bool
  deriving DecidableEq, Repr

/-- The nibble and RS of an expander byte (R98, R138). -/
def latchOf (b : Byte) : Latch := ⟨b.extractLsb' 4 4, b.getLsbD 0⟩

/-- Enable is bit 2 of an expander byte (R98). -/
def enableBit (b : Byte) : Bool := b.getLsbD 2

/-- The latches that some events make after the write `before`: each pair of consecutive writes, the first with Enable 1
and the second with Enable 0, both acknowledged (R138).

For the first write after reset there is no write before it in the trace, and whether it makes a falling edge of Enable is
open: the expander's outputs then are unknown, so it may (44_backlight_and_compat.md R225, 91_not_in_source.md N11). The
model does not settle it: `before` then stands for those outputs, `(outputs, .ack)`, and a claim must hold for every value
of them. DESIGN CHOICE, log entry 13, safe. -/
def latches : Byte × Ack → List Event → List Latch
  | _, [] => []
  | before, .d _ :: rest => latches before rest
  | before, .w _ b a :: rest =>
    if enableBit before.1 ∧ ¬ enableBit b ∧ before.2 = .ack ∧ a = .ack then latchOf b :: latches (b, a) rest
    else latches (b, a) rest

/-- The least time, in ns, that the delays of some events guarantee (R61: consecutive delays add). -/
def totalDelay : List Event → Nat
  | [] => 0
  | .w _ _ _ :: rest => totalDelay rest
  | .d ns :: rest => ns + totalDelay rest

/-- How many bus writes there are among some events. -/
def writeCount : List Event → Nat
  | [] => 0
  | .w _ _ _ :: rest => writeCount rest + 1
  | .d _ :: rest => writeCount rest

end Sys2Proof.Machine
end

