-- ==== Sys2Proof/Machine/Moves.lean ====
section
/-! DEFINITION. What the environment can do to the bridge (spec/70_reset_and_hazards.md R281, R282, R284): the host
submits a byte, reads `STATUS` (`State.status`) or asserts `RESET`; the bus lines up an answer. -/

namespace Sys2Proof.Machine

/-- The host offers one more byte on `REQ` (R284). -/
def State.submit (b : Byte) (s : State) : State :=
  { s with req := s.req ++ [b] }

/-- The environment lines up the answer of one more bus write (R67). -/
def State.lineUpAnswer (a : Ack) (s : State) : State :=
  { s with busIn := s.busIn ++ [a] }

/-- The events that a request in execution has emitted when `RESET` comes after `n` of them (R282); none in any other
decoder state, where no request is executing. -/
def State.emittedAtReset (n : Nat) (s : State) : List Event :=
  match s.rx with
  | .exec _ _ =>
    match step s with
    | .next t => (t.tr.drop s.tr.length).take n
    | _ => []
  | _ => []

/-- The trace up to a `RESET` that comes after `n` more events (R282): the events already emitted and no further event of
the request. Which event boundary it is, the spec leaves open: `n` is free (log entry 6). -/
def State.traceAtReset (n : Nat) (s : State) : List Event :=
  s.tr ++ s.emittedAtReset n

/-- The host asserts `RESET` after `n` more events, with the straps at `st` (R280, R281, R282): the bridge's state is that
of reset, nothing is written to the bus, and a request in progress or partly received is gone. The environment's side
goes on: the bytes still waiting on the port stay, and the answers that the bus has given to the writes emitted before the
`RESET` are gone, so that no write after it gets one of them again (R67, D10: each answer is its own draw). DESIGN CHOICE
for the MODEL's own fields, log entry 12, safe. -/
def State.hostReset (st : Straps) (n : Nat) (s : State) : State :=
  let answered := takeAnswers (writeCount (s.emittedAtReset n)) s
  { State.resetWith st s.par with req := s.req, busIn := answered.busIn, draws := answered.draws }

/-- A run has ended: `RX = IDLE`, not busy, and the host offers no byte (R285). -/
def State.ended (s : State) : Bool :=
  decide (s.rx = .idle) && !busy s && s.req.isEmpty

end Sys2Proof.Machine
end

