-- ==== Sys2Proof/Safety.lean ====
section
/-! DEFINITION. The terms of the claims: what a request puts on the bus, what it may change, the bus monitor that
says when a trace keeps the controller's protocol, and the states a bridge can come to. -/

namespace Sys2Proof.Machine

/-! ## What a request puts on the bus -/

/-- An event without the bus's answer: what the bridge chooses (20_memory.md R67). -/
inductive Out where
  | w (addr : DevAddr) (data : Byte)
  | d (ns : Nat)
  deriving DecidableEq, Repr

/-- Forget the answer. -/
def outOf : Event → Out
  | .w a b _ => .w a b
  | .d ns => .d ns

/-- The event is a write answered `NACK`. -/
def nacked : Event → Bool
  | .w _ _ .nack => true
  | .w _ _ .ack => false
  | .d _ => false

/-- What one Enable pulse puts on the bus (R132). -/
def pulseOuts (s : State) (v : Byte) : List Out :=
  [.w s.devAddr (v ||| s.par.enMask ||| backlightBit s), .d s.par.tEn,
   .w s.devAddr ((v &&& ~~~s.par.enMask) ||| backlightBit s), .d s.par.tCmd]

/-- What one sent byte puts on the bus: the pulse of its high nibble, then that of its low nibble (R135). -/
def sendOuts (s : State) (v : Byte) (m : Mode) : List Out :=
  pulseOuts s (highNibble v ||| modeBit s.par m) ++ pulseOuts s (lowNibble v ||| modeBit s.par m)

/-- The three recovery writes of INIT, each with its wait (41_init.md R153). -/
def recoveryOuts (s : State) : List Out :=
  let three : Byte := s.par.codes.functionSet ||| s.par.codes.eightBit
  pulseOuts s three ++ [.d s.par.tInit1] ++ pulseOuts s three ++ [.d s.par.tInit2] ++ pulseOuts s three ++
    [.d s.par.tInit3]

/-- What INIT puts on the bus (41_init.md R150), with FUNCTIONSET byte `fs`, DISPLAYCONTROL byte `dc` and
ENTRYMODESET byte `em`. -/
def initOuts (s : State) (fs dc em : Byte) : List Out :=
  recoveryOuts s ++ pulseOuts s (s.par.codes.functionSet ||| s.par.codes.fourBit) ++ sendOuts s fs .command ++
    sendOuts s dc .command ++ sendOuts s em .command ++ sendOuts s s.par.codes.clearDisplay .command ++ [.d s.par.tClear]

/-- `t` is `u` once `outs` has been put on the bus: the new events are appended to the trace, BUSERR is raised iff
one of them was answered `NACK`, the answers taken are gone, and NOTHING else differs. -/
def Drives (u t : State) (outs : List Out) : Prop :=
  ∃ new : List Event, new.map outOf = outs ∧
    t = { u with
      tr := u.tr ++ new
      busIn := t.busIn
      draws := t.draws
      faults := { u.faults with buserr := u.faults.buserr || new.any nacked } }

/-- The sticky bits once `PREINIT_CHECK` is made (60_exceptions.md R245). -/
def preinitMark (s : State) : Faults :=
  { s.faults with preinit := s.faults.preinit || decide (s.metaState = .uninit) }

/-- Request `i` answers a next state from `s`: the registers become those of `u`, and `outs` is put on the bus. -/
def Completes (i : Instr) (s u : State) (outs : List Out) : Prop :=
  ∃ t, exec i s = .next t ∧ Drives u t outs

/-! ## The bus monitor: the protocol of the trace (40_sequencer.md R132 to R139, 41_init.md R153, R154) -/

/-- Where the monitor stands. `k` counts the recovery writes of an INIT in progress, `first` is the Enable-low byte of
a byte's high nibble once it has been latched. -/
inductive Phase where
  /-- No pulse is open and no nibble is pending. -/
  | between (k : Nat)
  /-- Enable is high. -/
  | up (k : Nat) (first : Option Byte) (hi : Byte)
  /-- Enable is high and has been for long enough. -/
  | held (k : Nat) (first : Option Byte) (hi : Byte)
  /-- Enable has fallen; the settle time is owed. -/
  | down (k : Nat) (first : Option Byte) (lo : Byte)
  /-- One nibble has been latched and has settled. -/
  | half (k : Nat) (lo : Byte)
  /-- A clear or home command has been sent; its execution time is owed. -/
  | owed
  /-- The protocol was broken. -/
  | broken
  deriving DecidableEq, Repr

/-- The monitor: where it stands, and the bytes sent so far with their modes. -/
structure Monitor where
  phase : Phase
  sent  : List (Mode × Byte)
  deriving DecidableEq, Repr

/-- The monitor before any event. -/
def Monitor.start : Monitor := ⟨.between 0, []⟩

/-- The mode of an expander byte (R98). -/
def modeOf (b : Byte) : Mode := if b.getLsbD 0 then .data else .command

/-- The byte of two latched nibbles (R139). -/
def joinNibbles (hi lo : Byte) : Byte := highNibble hi ||| (lo >>> 4)

/-- A command whose execution time is owed: CLEARDISPLAY and RETURNHOME (R100, R160, R161). -/
def isSlow (m : Mode) (v : Byte) : Bool :=
  decide (m = .command) && v != 0 && decide (v.toNat < 4)

/-- The least wait after the recovery write that follows `k` others (R150). -/
def recoveryWait (k : Nat) : Nat :=
  if k < 2 then Config.minInit12 else Config.minInit3

/-- A latched byte is the nibble `n` with RS 0. -/
def isCommandNibble (n : BitVec 4) (lo : Byte) : Bool :=
  decide (latchOf lo = ⟨n, false⟩)

/-- Where the monitor stands after one event. -/
def phaseStep : Phase → Event → Phase
  | .between k, .w _ b _ =>
    if enableBit b then .up k none b else if k = 0 ∧ b &&& 0xF7 = 0 then .between 0 else .broken
  | .up k first hi, .d ns => if Config.minEn ≤ ns then .held k first hi else .broken
  | .held k first hi, .w _ b _ => if b = hi &&& ~~~(0x04 : Byte) then .down k first b else .broken
  | .down k none lo, .d ns => if Config.minCmd ≤ ns then .half k lo else .broken
  | .down _ (some hi) lo, .d ns =>
    if Config.minCmd ≤ ns ∧ modeOf hi = modeOf lo then
      if isSlow (modeOf lo) (joinNibbles hi lo) then .owed else .between 0
    else .broken
  | .half k lo, .d ns =>
    if k < 3 ∧ isCommandNibble 3 lo ∧ recoveryWait k ≤ ns then .between (k + 1) else .broken
  | .half k lo, .w _ b _ =>
    if enableBit b = false then .broken
    else if k = 0 then .up 0 (some lo) b
    else if k = 3 ∧ isCommandNibble 2 lo then .up 0 none b
    else .broken
  | .owed, .d ns => if Config.minClear ≤ ns then .between 0 else .broken
  | _, _ => .broken

/-- The byte that an event completes, if it does. -/
def completedByte : Phase → Event → List (Mode × Byte)
  | .down _ (some hi) lo, .d _ => [(modeOf lo, joinNibbles hi lo)]
  | _, _ => []

/-- The monitor after one event. -/
def Monitor.next (m : Monitor) (e : Event) : Monitor :=
  ⟨phaseStep m.phase e, m.sent ++ completedByte m.phase e⟩

/-- The monitor after a trace. -/
def monitor (tr : List Event) : Monitor := tr.foldl Monitor.next Monitor.start

/-- The trace keeps the protocol and stands between two requests: every Enable pulse is a high write, at least 450 ns,
the same byte with Enable low, at least 37 us; nibbles pair up into bytes but for INIT's three recovery nibbles, each
followed by its wait, and the one switch nibble after them; and 2 ms follow each clear or home. -/
abbrev Monitor.accepts (tr : List Event) : Prop := (monitor tr).phase = .between 0

/-- A DISPLAYCONTROL command byte (R100: `0000 1 D C B`). -/
def isDisplayControl (x : Mode × Byte) : Bool :=
  decide (x.1 = .command) && decide (x.2 &&& 0xF8 = 0x08)

/-- A FUNCTIONSET command byte (R100: `001 DL N F --`). -/
def isFunctionSet (x : Mode × Byte) : Bool :=
  decide (x.1 = .command) && decide (x.2 &&& 0xE0 = 0x20)

/-- An ENTRYMODESET command byte (R100: `0000 01 ID SH`). -/
def isEntryMode (x : Mode × Byte) : Bool :=
  decide (x.1 = .command) && decide (x.2 &&& 0xFC = 0x04)

/-- The last DISPLAYCONTROL command byte of a trace. -/
def lastDisplayControl (tr : List Event) : Option Byte :=
  (((monitor tr).sent.filter isDisplayControl).getLast?).map Prod.snd

/-- The last ENTRYMODESET command byte of a trace. -/
def lastEntryMode (tr : List Event) : Option Byte :=
  (((monitor tr).sent.filter isEntryMode).getLast?).map Prod.snd

/-! ## Invariants -/

/-- The reserved bits of FUNC, CTRL and ENTRY are 0, and so are `FUNC.DL` and `FUNC.F` (10_state.md R26 to R28, R30). -/
abbrev ReservedZero (s : State) : Prop :=
  s.func &&& 0xF7 = 0 ∧ s.ctrl &&& 0xF8 = 0 ∧ s.entry &&& 0xFC = 0

/-- The flag-mirror invariant (R38): once INIT has run, the controller was last told what CTRL and ENTRY hold. -/
abbrev FlagMirror (s : State) : Prop :=
  s.metaState = .oper →
    lastDisplayControl s.tr = some (0x08 ||| s.ctrl) ∧ lastEntryMode s.tr = some (0x04 ||| s.entry)

/-- The decoder state is one that R95 makes: a `COLLECT` holds a proper opcode that takes operands, the operands so far
and the right count; an `EXEC` returns to `STREAM` for a character and to `IDLE` for a request. -/
def RxOk (s : State) : Prop :=
  match s.rx with
  | .idle => True
  | .collect op buf k =>
    isReserved op = false ∧ op ≠ opPrintstr ∧ 1 ≤ k ∧ buf.length + 1 + k = requestLength op
  | .stream => True
  | .exec (.request i) ret => i.wf = true ∧ i.opcode ≠ opPrintstr ∧ ret = .idle
  | .exec (.printstrChar c) ret => c ≠ 0 ∧ ret = .stream

/-- The invariant of the bridge. -/
structure Inv (s : State) : Prop where
  wired    : s.par.wired
  legal    : s.par.legal
  coded    : s.par.coded
  rxOk     : RxOk s
  reserved : ReservedZero s
  protocol : Monitor.accepts s.tr
  mirror   : FlagMirror s

/-- The states that a bridge with legal parameters, the wiring of R98 and the constants of R100 and R101 can come to, by
its own steps and the moves of its environment (70_reset_and_hazards.md R284). -/
inductive Reachable : State → Prop where
  | reset (st : Straps) (p : Params) (hw : p.wired) (hl : p.legal) (hc : p.coded) : Reachable (State.resetWith st p)
  | step {s t : State} (h : Reachable s) (hs : step s = .next t) : Reachable t
  | submit {s : State} (h : Reachable s) (b : Byte) : Reachable (s.submit b)
  | answer {s : State} (h : Reachable s) (a : Ack) : Reachable (s.lineUpAnswer a)
  | hostReset {s : State} (h : Reachable s) (st : Straps) (n : Nat) : Reachable (s.hostReset st n)

end Sys2Proof.Machine
end

