-- ==== Sys2Proof/Certificates/Slice0/Obligations.lean ====
section
/-! DEFINITION. The statements for the provers, from the numbered rules of spec/. The masks and the
controller's constants are parameters (00_scope.md R6), so a statement for every state names them as the fields of `par`;
beside it stands, as literals, what the rules give them by default. -/

namespace Sys2Proof.Machine

/-- Requests that make `PREINIT_CHECK`: all but INIT and the two drawing no-ops (R245). -/
def checksInit : Instr → Bool
  | .init => false
  | .drawHgraph _ _ _ _ => false
  | .drawVgraph _ _ _ _ => false
  | _ => true

/-- Requests that write characters through CGSTALE_CHECK, at least one (R247). -/
def writesCharacter : Instr → Bool
  | .write _ => true
  | .printstr (_ :: _) => true
  | _ => false

/-- `ASPACE` after a request (R33). -/
def aspaceAfter (i : Instr) (before : Aspace) : Aspace :=
  match i with
  | .init => .ddram
  | .clear => .ddram
  | .home => .ddram
  | .setpos _ _ => .ddram
  | .createchar _ _ => .cgram
  | _ => before

/-- One bit of a flag register set or cleared. -/
def withFlag (r flag : Byte) (set : Bool) : Byte :=
  if set = true then r ||| flag else r &&& ~~~flag

/-- One of the six toggles (R164): its opcode, its flag of R101 with its default value, how it changes CTRL, and that the
byte sent is at the defaults `0x08 | CTRL`, one of 0x08 to 0x0F. -/
def ControlRequest (i : Instr) (op : Byte) (flag : Codes → Byte) (value : Byte) (set : Bool) : Prop :=
  encode i = [op] ∧ flag Config.codes = value ∧ Config.codes.displayControl = 0x08 ∧ ∀ s : State,
    let ctrl : Byte := withFlag s.ctrl (flag s.par.codes) set
    Completes i s { s with ctrl := ctrl, faults := preinitMark s }
      (sendOuts s (s.par.codes.displayControl ||| ctrl) .command) ∧
    (s.par.coded → s.ctrl &&& 0xF8 = 0 → 0x08 ≤ (0x08 ||| ctrl).toNat ∧ (0x08 ||| ctrl).toNat ≤ 0x0F)

/-- One of the four entry-mode requests (R173): its opcode, its flag of R101 with its default value, how it changes ENTRY,
and that the byte sent is at the defaults `0x04 | ENTRY`, one of 0x04 to 0x07. -/
def EntryRequest (i : Instr) (op : Byte) (flag : Codes → Byte) (value : Byte) (set : Bool) : Prop :=
  encode i = [op] ∧ flag Config.codes = value ∧ Config.codes.entryModeSet = 0x04 ∧ ∀ s : State,
    let entry : Byte := withFlag s.entry (flag s.par.codes) set
    Completes i s { s with entry := entry, faults := preinitMark s }
      (sendOuts s (s.par.codes.entryModeSet ||| entry) .command) ∧
    (s.par.coded → s.entry &&& 0xFC = 0 → 0x04 ≤ (0x04 ||| entry).toNat ∧ (0x04 ||| entry).toNat ≤ 0x07)

/-- The bus writes of a request (R289). -/
def tableWrites : Instr → Nat
  | .init => 24
  | .createchar _ _ => 36
  | .printstr text => 4 * text.length
  | .backlight => 1
  | .nobacklight => 1
  | .drawHgraph _ _ _ _ => 0
  | .drawVgraph _ _ _ _ => 0
  | _ => 4

/-- The sum of the delays of a request (R289). -/
def tableDelay (p : Params) : Instr → Nat
  | .init => 12 * (p.tEn + p.tCmd) + p.tInit1 + p.tInit2 + p.tInit3 + p.tClear
  | .clear => 2 * (p.tEn + p.tCmd) + p.tClear
  | .home => 2 * (p.tEn + p.tCmd) + p.tHome
  | .createchar _ _ => 18 * (p.tEn + p.tCmd)
  | .printstr text => 2 * text.length * (p.tEn + p.tCmd)
  | .backlight => 0
  | .nobacklight => 0
  | .drawHgraph _ _ _ _ => 0
  | .drawVgraph _ _ _ _ => 0
  | _ => 2 * (p.tEn + p.tCmd)

/-- The bytes that R99 allows on the bus with backlight bit `bl`: the two halves of a pulse of nibble `n` in mode `m`,
and the backlight write. -/
def IsExpanderByte (bl : Bool) (b : Byte) : Prop :=
  let light : Byte := if bl = true then 0x08 else 0x00
  (∃ (n : BitVec 4) (m : Bool), b = (n.setWidth 8 <<< 4) ||| light ||| 0x04 ||| (if m = true then 0x01 else 0x00)) ∨
  (∃ (n : BitVec 4) (m : Bool), b = (n.setWidth 8 <<< 4) ||| light ||| (if m = true then 0x01 else 0x00)) ∨
  b = light

/-- A request that changes CTRL or ENTRY by one bit: which bit it names (0 to 2 of CTRL, 8 and 9 for bits 0 and 1 of
ENTRY) and what it makes of it (R177). -/
def flagEffect : Instr → Option (Nat × Bool)
  | .display => some (2, true)
  | .nodisplay => some (2, false)
  | .cursor => some (1, true)
  | .nocursor => some (1, false)
  | .blink => some (0, true)
  | .noblink => some (0, false)
  | .leftToRight => some (9, true)
  | .rightToLeft => some (9, false)
  | .autoscroll => some (8, true)
  | .noautoscroll => some (8, false)
  | _ => none

/-- The effect on bit `n` of the last request of a list that names it; `before` if none does. -/
def lastEffect (n : Nat) : List Instr → Bool → Bool
  | [], before => before
  | i :: rest, before =>
    lastEffect n rest (match flagEffect i with | some (k, v) => if k = n then v else before | none => before)

/-- Requests executed one after the other. -/
def execAll : List Instr → State → Host.Outcome State Fault Refusal
  | [], s => .next s
  | i :: rest, s =>
    match exec i s with
    | .next t => execAll rest t
    | .fault r => .fault r
    | .refused r => .refused r

/-- `t` with everything that the bus's answers may touch taken from `s`: the answers in the trace and BUSERR (R67), and
the answers still to come. -/
def withAnswersOf (s t : State) : State :=
  { t with tr := s.tr, busIn := s.busIn, draws := s.draws, faults := { t.faults with buserr := s.faults.buserr } }

end Sys2Proof.Machine

open Sys2Proof Sys2Proof.Machine

/-! ## Encoding -/

/-- R91 to R93, R97: decoding the bytes of a well-formed request gives it back, whatever follows it. -/
def Obligations.EncodeThenDecodeIsIdentity : Prop :=
  ∀ (i : Instr) (rest : List Byte), i.wf = true → decode (encode i ++ rest) = .ok (i, rest)

/-- R91 to R97: what the decoder reads is a well-formed request, and the bytes are its encoding. -/
def Obligations.DecodeReadsOnlyEncodings : Prop :=
  ∀ (bytes rest : List Byte) (i : Instr), decode bytes = .ok (i, rest) → i.wf = true ∧ bytes = encode i ++ rest

/-- R91, R92: words written out from the opcode map. -/
def Obligations.OpcodeMapWordsDecode : Prop :=
  decode [0x01] = .ok (.init, []) ∧ decode [0x04, 0x01, 0x05] = .ok (.setpos 1 5, []) ∧
  decode [0x0A] = .ok (.noblink, []) ∧ decode [0x0E] = .ok (.rightToLeft, []) ∧
  decode [0x13] = .ok (.nobacklight, []) ∧ decode [0x14, 0x15] = .ok (.write 0x15, []) ∧
  decode [0x15, 0x48, 0x69, 0x00] = .ok (.printstr [0x48, 0x69], []) ∧
  decode [0x17, 1, 2, 3, 4] = .ok (.drawVgraph 1 2 3 4, []) ∧
  decode [0x11, 2, 0x1F, 0x11, 0x12, 0x13, 0x14, 0x15, 0x16, 0x17] =
    .ok (.createchar 2 ⟨0x1F, 0x11, 0x12, 0x13, 0x14, 0x15, 0x16, 0x17⟩, [])

/-- R96: exactly the opcode bytes 0x00 and 0x18 to 0xFF are rejected as reserved. -/
def Obligations.ReservedOpcodesAreRejected : Prop :=
  ∀ (op : Byte) (rest : List Byte),
    decode (op :: rest) = .error (.reserved op) ↔ op.toNat = 0 ∨ 0x18 ≤ op.toNat

/-- R91, R97: the opcode byte gives the length of every request but PRINTSTR, which is n + 2 bytes long and ends at its
first 0x00. -/
def Obligations.RequestLengthFollowsOpcode : Prop :=
  ∀ i : Instr, encode i ≠ [] ∧ (encode i).head? = some i.opcode ∧
    ((∀ text, i ≠ .printstr text) → (encode i).length = requestLength i.opcode) ∧
    (∀ text, i = .printstr text →
      (encode i).length = text.length + 2 ∧ (i.wf = true → (encode i).findIdx? (· == 0) = some (text.length + 1)))

/-! ## The request port -/

/-- R95: in `EXEC` a step performs the rule of the request, then sets RX to `ret`; on PRINTSTR's opcode byte a step
performs the rule of PRINTSTR with the text received so far, then sets RX to `STREAM` (R202). -/
def Obligations.StepRunsDecodedRequest : Prop :=
  (∀ (s : State) (i : Instr) (ret : Ret), s.rx = .exec (.request i) ret → step s = withRx (rxOf ret) (exec i s)) ∧
  (∀ (s : State) (rest : List Byte), s.rx = .idle → s.req = 0x15 :: rest →
    step s = withRx .stream (exec (.printstr []) { s with req := rest }))

/-- R95: the bytes of a fixed-length request, taken from `IDLE`, run that request: one step for each byte and one that
executes it, after which RX is `IDLE` again and exactly its bytes are gone. -/
def Obligations.FixedLengthRequestRunsFromItsBytes : Prop :=
  ∀ (i : Instr) (rest : List Byte) (s : State), (∀ text, i ≠ .printstr text) → s.rx = .idle → s.req = encode i ++ rest →
    Sys2Proof.core.run ((encode i).length + 1) s = withRx .idle (exec i { s with req := rest })

/-- R95, R202, R203: the bytes of a PRINTSTR, taken from `IDLE`, run it: the opcode byte, two steps for each character,
and the terminator, after which RX is `IDLE` again. -/
def Obligations.PrintstrRunsFromItsBytes : Prop :=
  ∀ (text rest : List Byte) (s : State), textOk text = true → s.rx = .idle → s.req = encode (.printstr text) ++ rest →
    Sys2Proof.core.run (2 * text.length + 2) s = withRx .idle (exec (.printstr text) { s with req := rest })

/-- R203: a character of PRINTSTR executes as the body of WRITE, with `STATUS.BUSY` 1, and returns to `STREAM`. -/
def Obligations.PrintstrCharacterIsWriteBody : Prop :=
  ∀ (s : State) (c : Byte), s.rx = .exec (.printstrChar c) .stream →
    s.status.getLsbD 0 = true ∧ step s = withRx .stream (exec (.write c) s)

/-- R95: in `STREAM` a 0x00 ends PRINTSTR with no bus event, and any other byte begins a character. -/
def Obligations.StreamTakesCharactersUntilZero : Prop :=
  ∀ (s : State) (b : Byte) (rest : List Byte), s.rx = .stream → s.req = b :: rest →
    (b = 0 → step s = .next { s with req := rest, rx := .idle }) ∧
    (b ≠ 0 → step s = .next { s with req := rest, rx := .exec (.printstrChar b) .stream })

/-- R34: a byte is taken only when RX is not `EXEC`; the bytes left on the port are neither lost nor reordered. -/
def Obligations.BytesWaitWhileExecuting : Prop :=
  ∀ s t : State, step s = .next t →
    (s.status.getLsbD 0 = true → t.req = s.req) ∧ (s.status.getLsbD 0 = false → t.req = s.req.tail)

/-- The MODEL's choice (log entry 3): a bridge that is ready and is offered no byte does nothing. -/
def Obligations.ReadyBridgeWaitsForHost : Prop :=
  ∀ s : State, s.status.getLsbD 0 = false → s.req = [] → step s = .next s

/-- R244: a reserved opcode byte in `IDLE` sets ILLOP and is otherwise ignored, whatever META is; no other byte sets it: not
a proper opcode byte taken in `IDLE`, and not a byte taken in any other decoder state. -/
def Obligations.ReservedByteSetsIllopAlone : Prop :=
  (∀ (s : State) (b : Byte) (rest : List Byte), s.rx = .idle → s.req = b :: rest → (b.toNat = 0 ∨ 0x18 ≤ b.toNat) →
    step s = .next { s with req := rest, faults := { s.faults with illop := true } }) ∧
  (∀ (s t : State) (b : Byte) (rest : List Byte), s.rx = .idle → s.req = b :: rest → (1 ≤ b.toNat ∧ b.toNat ≤ 0x17) →
    step s = .next t → t.faults.illop = s.faults.illop) ∧
  (∀ s t : State, s.rx ≠ .idle → step s = .next t → t.faults.illop = s.faults.illop)

/-! ## Reset -/

/-- R280: every piece of state at its reset value, whatever the bridge did before and wherever in a request `RESET` comes. -/
def Obligations.ResetSetsEveryRegister : Prop :=
  (State.reset.bl = false ∧ State.reset.metaState = .uninit ∧ State.reset.func = 0x00 ∧ State.reset.ctrl = 0x00 ∧
    State.reset.entry = 0x00 ∧ State.reset.aspace = .unknown ∧ State.reset.status = 0x00 ∧ State.reset.rx = .idle ∧
    State.reset.tr = [] ∧ State.reset.exp = none) ∧
  (∀ (st : Straps) (n : Nat) (s : State),
    (s.hostReset st n).devAddr = st.devAddr ∧ (s.hostReset st n).lines = st.lines ∧ (s.hostReset st n).cols = st.cols ∧
    (s.hostReset st n).bl = false ∧ (s.hostReset st n).metaState = .uninit ∧ (s.hostReset st n).func = 0x00 ∧
    (s.hostReset st n).ctrl = 0x00 ∧ (s.hostReset st n).entry = 0x00 ∧ (s.hostReset st n).aspace = .unknown ∧
    (s.hostReset st n).status = 0x00 ∧ (s.hostReset st n).rx = .idle ∧ (s.hostReset st n).tr = [] ∧
    (s.hostReset st n).exp = none)

/-- R282: a RESET during a request stops it at an event boundary: `traceAtReset n`, for the free boundary n of log entry 6,
is the trace that was there and the first n events of the request (all of them if it has fewer), no further one; the INIT
that follows does not raise REINIT. The answers given to the events emitted are used up (R67; the MODEL's own fields, log
entry 12). -/
def Obligations.ResetCutsRequestAtEventBoundary : Prop :=
  ∀ (s t : State) (job : Job) (ret : Ret) (n : Nat), s.rx = .exec job ret → step s = .next t →
    ∃ emitted dropped, t.tr = s.tr ++ emitted ++ dropped ∧ s.traceAtReset n = s.tr ++ emitted ∧
      (emitted.length = n ∨ (dropped = [] ∧ emitted.length ≤ n)) ∧
      ∀ st : Straps,
        (s.hostReset st n).busIn = s.busIn.drop (writeCount emitted) ∧
        (s.hostReset st n).draws = s.draws + (writeCount emitted - s.busIn.length) ∧
        (∀ u : State, exec .init (s.hostReset st n) = .next u → u.faults.reinit = false)

/-- R6, R100, R101: the parameters with a default, at reset. -/
def Obligations.ResetParametersAreTheDefaults : Prop :=
  let p := State.reset.par
  p.rsMask = 0x01 ∧ p.rwMask = 0x02 ∧ p.enMask = 0x04 ∧ p.blMask = 0x08 ∧ p.tEn = 1000 ∧ p.tCmd = 50000 ∧
  p.tInit1 = 4100000 ∧ p.tInit2 = 4100000 ∧ p.tInit3 = 150000 ∧ p.tClear = 2000000 ∧ p.tHome = 2000000 ∧
  p.tPower = 50000000 ∧ p.initCtrl = 0b100 ∧ p.initEntry = 0b10 ∧
  p.codes.clearDisplay = 0x01 ∧ p.codes.returnHome = 0x02 ∧ p.codes.entryModeSet = 0x04 ∧ p.codes.displayControl = 0x08 ∧
  p.codes.cursorShift = 0x10 ∧ p.codes.functionSet = 0x20 ∧ p.codes.setCgramAddr = 0x40 ∧ p.codes.setDdramAddr = 0x80 ∧
  p.codes.eightBit = 0x10 ∧ p.codes.fourBit = 0x00 ∧ p.codes.twoLines = 0x08 ∧ p.codes.font5x10 = 0x04 ∧
  p.codes.displayOn = 0x04 ∧ p.codes.cursorOn = 0x02 ∧ p.codes.blinkOn = 0x01 ∧ p.codes.leftToRight = 0x02 ∧
  p.codes.autoscroll = 0x01 ∧ p.codes.displayMove = 0x08 ∧ p.codes.moveRight = 0x04 ∧ p.codes.moveLeft = 0x00

/-! ## The sequencer's primitives -/

/-- R130: exactly `value | currentBacklightBit` goes to DEV_ADDR as one event; BUSERR is raised iff the answer is
`NACK`; the answer is the bus's next one; and nothing else changes. -/
def Obligations.ExpWriteSendsValueWithBacklight : Prop :=
  ∀ (v : Byte) (s : State), expWrite v s = { takeAnswer s with
    tr := s.tr ++ [.w s.devAddr (v ||| (if s.bl = true then s.par.blMask else 0x00)) (nextAnswer s)]
    faults := { s.faults with buserr := s.faults.buserr || decide (nextAnswer s = .nack) } }

/-- R132: four events, in the order W, D, W, D: Enable high, T_EN, Enable low, T_CMD; a `NACK` stops nothing. -/
def Obligations.EnablePulseIsHighWaitLowSettle : Prop :=
  ∀ (v : Byte) (s : State), ∃ (a1 a2 : Ack) (busIn : List Ack) (draws : Nat), write4 v s = { s with
    tr := s.tr ++ [.w s.devAddr (v ||| s.par.enMask ||| (if s.bl = true then s.par.blMask else 0x00)) a1, .d s.par.tEn,
      .w s.devAddr ((v &&& ~~~s.par.enMask) ||| (if s.bl = true then s.par.blMask else 0x00)) a2, .d s.par.tCmd]
    busIn := busIn
    draws := draws
    faults := { s.faults with buserr := s.faults.buserr || decide (a1 = .nack) || decide (a2 = .nack) } }

/-- R136: the full trace of one `Send(v, m)`, at the wiring of R98. -/
def Obligations.SentByteIsTwoPulsesHighNibbleFirst : Prop :=
  ∀ (v : Byte) (m : Mode) (s : State), s.par.wired →
    let bl : Byte := if s.bl = true then 1 else 0
    let rs : Byte := if m = .data then 1 else 0
    let h : Byte := (v.extractLsb' 4 4).setWidth 8
    let l : Byte := (v.extractLsb' 0 4).setWidth 8
    ∃ a1 a2 a3 a4 : Ack, (send v m s).tr = s.tr ++
      [.w s.devAddr ((h <<< 4) ||| (bl <<< 3) ||| 0x04 ||| rs) a1, .d s.par.tEn,
       .w s.devAddr ((h <<< 4) ||| (bl <<< 3) ||| rs) a2, .d s.par.tCmd,
       .w s.devAddr ((l <<< 4) ||| (bl <<< 3) ||| 0x04 ||| rs) a3, .d s.par.tEn,
       .w s.devAddr ((l <<< 4) ||| (bl <<< 3) ||| rs) a4, .d s.par.tCmd]

/-! ## The requests -/

/-- R150 to R154: INIT completes from every state: the three recovery nibbles with their waits, the switch nibble,
FUNCTIONSET with FUNC computed from LINES, DISPLAYCONTROL and ENTRYMODESET with the baselines, and clear; REINIT iff META
was OPER; BL is not written. At the default constants the recovery nibble is that of 0x30, the switch nibble that of 0x20,
FUNC is 0x08 or 0x00 and the commands are 0x20, 0x08, 0x04 and 0x01; at the default baselines CTRL is 0x04 and ENTRY
0x02. -/
def Obligations.InitRunsRecoveryAndSetsBaselines : Prop :=
  encode .init = [0x01] ∧
  (∀ s : State,
    let func : Byte := s.par.codes.fourBit ||| (if 2 ≤ s.lines.toNat then s.par.codes.twoLines else 0x00)
    let ctrl : Byte := s.par.initCtrl.setWidth 8
    let entry : Byte := s.par.initEntry.setWidth 8
    Completes .init s
      { s with
        func := func, ctrl := ctrl, entry := entry, aspace := .ddram, metaState := .oper
        faults := { s.faults with reinit := s.faults.reinit || decide (s.metaState = .oper) } }
      (initOuts s (s.par.codes.functionSet ||| func) (s.par.codes.displayControl ||| ctrl)
        (s.par.codes.entryModeSet ||| entry))) ∧
  (∀ s : State, s.par.coded →
    (∀ fs dc em : Byte, initOuts s fs dc em =
      pulseOuts s 0x30 ++ [.d s.par.tInit1] ++ pulseOuts s 0x30 ++ [.d s.par.tInit2] ++ pulseOuts s 0x30 ++
        [.d s.par.tInit3] ++ pulseOuts s 0x20 ++ sendOuts s fs .command ++ sendOuts s dc .command ++
        sendOuts s em .command ++ sendOuts s 0x01 .command ++ [.d s.par.tClear]) ∧
    s.par.codes.fourBit ||| (if 2 ≤ s.lines.toNat then s.par.codes.twoLines else 0x00) =
      (if 2 ≤ s.lines.toNat then (0x08 : Byte) else 0x00) ∧
    s.par.codes.functionSet = 0x20 ∧ s.par.codes.displayControl = 0x08 ∧ s.par.codes.entryModeSet = 0x04) ∧
  Config.params.initCtrl.setWidth 8 = (0x04 : Byte) ∧ Config.params.initEntry.setWidth 8 = (0x02 : Byte)

/-- R155: INIT emits exactly 52 events: 15 for the recovery sequence, 4 for the 0x2 nibble, 32 for the four `Send` calls and
one D(T_CLEAR); 24 of them are writes; and its delays sum to the formula, 10962000 ns at the default parameters, whatever
the bus answers. -/
def Obligations.InitEmitsFiftyTwoEvents : Prop :=
  (∀ s : State, ∃ (t : State) (recovery switch sends last : List Event), exec .init s = .next t ∧
    t.tr = s.tr ++ (recovery ++ switch ++ sends ++ last) ∧
    recovery.length = 15 ∧ switch.length = 4 ∧ sends.length = 32 ∧ last.length = 1 ∧
    recovery.map outOf = recoveryOuts s ∧
    switch.map outOf = pulseOuts s (s.par.codes.functionSet ||| s.par.codes.fourBit) ∧ last = [.d s.par.tClear] ∧
    (recovery ++ switch ++ sends ++ last).length = 52 ∧ writeCount (recovery ++ switch ++ sends ++ last) = 24 ∧
    totalDelay (recovery ++ switch ++ sends ++ last) =
      12 * (s.par.tEn + s.par.tCmd) + s.par.tInit1 + s.par.tInit2 + s.par.tInit3 + s.par.tClear) ∧
  12 * (Config.params.tEn + Config.params.tCmd) + Config.params.tInit1 + Config.params.tInit2 + Config.params.tInit3 +
    Config.params.tClear = 10962000

/-- R160, R161: CLEAR and HOME complete from every state, with their 2 ms wait after the command; the
commands are 0x01 and 0x02 at the defaults. -/
def Obligations.ClearAndHomeSendAndWait : Prop :=
  encode .clear = [0x02] ∧ encode .home = [0x03] ∧ Config.codes.clearDisplay = 0x01 ∧ Config.codes.returnHome = 0x02 ∧
  Config.params.tClear = 2000000 ∧ Config.params.tHome = 2000000 ∧ ∀ s : State,
    Completes .clear s { s with aspace := .ddram, faults := preinitMark s }
      (sendOuts s s.par.codes.clearDisplay .command ++ [.d s.par.tClear]) ∧
    Completes .home s { s with aspace := .ddram, faults := preinitMark s }
      (sendOuts s s.par.codes.returnHome .command ++ [.d s.par.tHome])

/-- R162: SETPOS completes from every state for every operand: offset by line bits 1:0, column added modulo 256, bit 7 of
the address absorbed by the OR with SETDDRAMADDR, 0x80 at the defaults. -/
def Obligations.SetposSendsDdramAddress : Prop :=
  Config.codes.setDdramAddr = 0x80 ∧ ∀ (line col : Byte) (s : State),
    let off : Nat := (if line.toNat % 2 = 1 then 0x40 else 0x00) + (if line.toNat / 2 % 2 = 1 then 0x14 else 0x00)
    let a : Byte := BitVec.ofNat 8 ((col.toNat + off) % 256)
    encode (.setpos line col) = [0x04, line, col] ∧
    Completes (.setpos line col) s { s with aspace := .ddram, faults := preinitMark s }
      (sendOuts s (s.par.codes.setDdramAddr ||| a) .command)

/-- R70: the four line offsets, by bits 1:0 of the line operand; bits 7:2 are ignored. -/
def Obligations.LineOperandSelectsOffset : Prop :=
  ∀ line : Byte,
    (line.toNat % 4 = 0 → lineOffset line = 0x00) ∧ (line.toNat % 4 = 1 → lineOffset line = 0x40) ∧
    (line.toNat % 4 = 2 → lineOffset line = 0x14) ∧ (line.toNat % 4 = 3 → lineOffset line = 0x54)

/-- R164 to R170: each toggle sets or clears its one bit of CTRL, keeps the others, and sends the whole byte. -/
def Obligations.DisplayTogglesUpdateAndSendCtrl : Prop :=
  ControlRequest .display 0x05 Codes.displayOn 0x04 true ∧ ControlRequest .nodisplay 0x06 Codes.displayOn 0x04 false ∧
  ControlRequest .cursor 0x07 Codes.cursorOn 0x02 true ∧ ControlRequest .nocursor 0x08 Codes.cursorOn 0x02 false ∧
  ControlRequest .blink 0x09 Codes.blinkOn 0x01 true ∧ ControlRequest .noblink 0x0A Codes.blinkOn 0x01 false

/-- R171, R172: the display shifts send CURSORSHIFT with DISPLAYMOVE and MOVELEFT or MOVERIGHT, 0x18 and 0x1C at the
defaults, and change no flag register. -/
def Obligations.ScrollRequestsSendShiftCommand : Prop :=
  encode .scrollLeft = [0x0B] ∧ encode .scrollRight = [0x0C] ∧
  (∀ s : State,
    Completes .scrollLeft s { s with faults := preinitMark s }
      (sendOuts s (s.par.codes.cursorShift ||| s.par.codes.displayMove ||| s.par.codes.moveLeft) .command) ∧
    Completes .scrollRight s { s with faults := preinitMark s }
      (sendOuts s (s.par.codes.cursorShift ||| s.par.codes.displayMove ||| s.par.codes.moveRight) .command)) ∧
  Config.codes.cursorShift ||| Config.codes.displayMove ||| Config.codes.moveLeft = 0x18 ∧
  Config.codes.cursorShift ||| Config.codes.displayMove ||| Config.codes.moveRight = 0x1C

/-- R173 to R176: each entry-mode request sets or clears its one bit of ENTRY, keeps the other, and sends the whole
byte. -/
def Obligations.EntryRequestsUpdateAndSendEntry : Prop :=
  EntryRequest .leftToRight 0x0D Codes.leftToRight 0x02 true ∧ EntryRequest .rightToLeft 0x0E Codes.leftToRight 0x02 false ∧
  EntryRequest .autoscroll 0x0F Codes.autoscroll 0x01 true ∧ EntryRequest .noautoscroll 0x10 Codes.autoscroll 0x01 false

/-- R200: CREATECHAR completes from every state: SETCGRAMADDR, 0x40 at the defaults, of the masked slot, then the eight rows
unmasked in data mode; ASPACE becomes CGRAM and its own writes raise no CGSTALE. -/
def Obligations.CreatecharSendsSlotAndRows : Prop :=
  Config.codes.setCgramAddr = 0x40 ∧ ∀ (slot r0 r1 r2 r3 r4 r5 r6 r7 : Byte) (s : State),
    encode (.createchar slot ⟨r0, r1, r2, r3, r4, r5, r6, r7⟩) = [0x11, slot, r0, r1, r2, r3, r4, r5, r6, r7] ∧
    Completes (.createchar slot ⟨r0, r1, r2, r3, r4, r5, r6, r7⟩) s
      { s with aspace := .cgram, faults := preinitMark s }
      (sendOuts s (s.par.codes.setCgramAddr ||| BitVec.ofNat 8 (slot.toNat % 8 * 8)) .command ++
        ([r0, r1, r2, r3, r4, r5, r6, r7].flatMap fun r => sendOuts s r .data))

/-- R201: WRITE completes from every state: the byte is sent unchanged in data mode; CGSTALE iff ASPACE is CGRAM. -/
def Obligations.WriteSendsCharacter : Prop :=
  ∀ (c : Byte) (s : State), encode (.write c) = [0x14, c] ∧
    Completes (.write c) s
      { s with faults := { preinitMark s with cgstale := s.faults.cgstale || decide (s.aspace = .cgram) } }
      (sendOuts s c .data)

/-- R202: PRINTSTR completes from every state for every text, the empty one too: its characters are sent in text order,
unchanged, with the checks of WRITE for each; the empty text sends nothing and raises no CGSTALE. -/
def Obligations.PrintstrSendsEveryCharacter : Prop :=
  ∀ (text : List Byte) (s : State), encode (.printstr text) = 0x15 :: (text ++ [0x00]) ∧
    Completes (.printstr text) s
      { s with faults := { preinitMark s with
        cgstale := s.faults.cgstale || (decide (s.aspace = .cgram) && !text.isEmpty) } }
      (text.flatMap fun c => sendOuts s c .data)

/-- R220, R221, R226: BACKLIGHT and NOBACKLIGHT complete from every state: BL is written, whatever the bus answers, and one
byte holding only the new backlight bit is sent, with no delay after it. -/
def Obligations.BacklightRequestsWriteOneByte : Prop :=
  encode .backlight = [0x12] ∧ encode .nobacklight = [0x13] ∧ Config.params.blMask = 0x08 ∧ ∀ s : State,
    Completes .backlight s { s with bl := true, faults := preinitMark s } [.w s.devAddr s.par.blMask] ∧
    Completes .nobacklight s { s with bl := false, faults := preinitMark s } [.w s.devAddr 0x00]

/-- R222, R223: the drawing requests complete from every state for every operand and change nothing. -/
def Obligations.DrawRequestsDoNothing : Prop :=
  ∀ (a0 a1 a2 a3 : Byte) (s : State),
    encode (.drawHgraph a0 a1 a2 a3) = [0x16, a0, a1, a2, a3] ∧ exec (.drawHgraph a0 a1 a2 a3) s = .next s ∧
    encode (.drawVgraph a0 a1 a2 a3) = [0x17, a0, a1, a2, a3] ∧ exec (.drawVgraph a0 a1 a2 a3) s = .next s

/-! ## Faults and status -/

/-- R243 to R247, R249: for every request, exactly which sticky bits it sets: PREINIT, REINIT and CGSTALE by the state it
begins in, BUSERR iff some write was answered `NACK`, ILLOP never. -/
def Obligations.RequestsSetExactlyTheirFaultBits : Prop :=
  ∀ (i : Instr) (s : State), ∃ (t : State) (new : List Event), exec i s = .next t ∧ t.tr = s.tr ++ new ∧
    t.faults.buserr = (s.faults.buserr || new.any fun e => match e with | .w _ _ a => decide (a = .nack) | .d _ => false) ∧
    t.faults.illop = s.faults.illop ∧
    t.faults.preinit = (s.faults.preinit || (decide (s.metaState = .uninit) && checksInit i)) ∧
    t.faults.reinit = (s.faults.reinit || (decide (s.metaState = .oper) && decide (i = .init))) ∧
    t.faults.cgstale = (s.faults.cgstale || (decide (s.aspace = .cgram) && writesCharacter i))

/-- R251, R32: a sticky bit, once 1, stays 1 over every step. -/
def Obligations.StickyBitsSurviveEveryStep : Prop :=
  ∀ s t : State, step s = .next t → ∀ n, 2 ≤ n → n ≤ 6 → s.status.getLsbD n = true → t.status.getLsbD n = true

/-- R32: what each bit of STATUS shows. -/
def Obligations.StatusBitsShowState : Prop :=
  ∀ s : State,
    (s.status.getLsbD 0 = true ↔ ∃ job ret, s.rx = .exec job ret) ∧
    (s.status.getLsbD 1 = true ↔ s.metaState = .oper) ∧
    s.status.getLsbD 2 = s.faults.buserr ∧ s.status.getLsbD 3 = s.faults.illop ∧ s.status.getLsbD 4 = s.faults.preinit ∧
    s.status.getLsbD 5 = s.faults.reinit ∧ s.status.getLsbD 6 = s.faults.cgstale ∧ s.status.getLsbD 7 = false

/-! ## What every request keeps -/

/-- R33: `ASPACE` after each request. -/
def Obligations.RequestsTrackAddressSpace : Prop :=
  ∀ (i : Instr) (s : State), ∃ t, exec i s = .next t ∧ t.aspace = aspaceAfter i s.aspace

/-- R31, R156: only INIT writes META: a request sets it to OPER if it is INIT and keeps it otherwise; a step that changes it
is one in `EXEC` of INIT and gives OPER, so no step that takes a byte or runs a PRINTSTR character changes it, and no step
returns it to UNINIT. -/
def Obligations.OnlyInitLeavesUninit : Prop :=
  (∀ (i : Instr) (s t : State), exec i s = .next t → t.metaState = if i = .init then .oper else s.metaState) ∧
  (∀ s t : State, step s = .next t → t.metaState ≠ s.metaState →
    (∃ ret, s.rx = .exec (.request .init) ret) ∧ t.metaState = .oper) ∧
  (∀ s t : State, step s = .next t → s.metaState = .oper → t.metaState = .oper)

/-- R24, R2, R6: no step writes DEV_ADDR, LINES, COLS, which are given at construction, or a parameter. -/
def Obligations.ConfigurationIsReadOnly : Prop :=
  ∀ s t : State, step s = .next t →
    t.devAddr = s.devAddr ∧ t.lines = s.lines ∧ t.cols = s.cols ∧ t.par = s.par

/-- R25: no request reads COLS, and only INIT reads LINES. -/
def Obligations.GeometryIsReadOnlyByInit : Prop :=
  ∀ (i : Instr) (s : State) (lines cols : Byte), ∃ t, exec i s = .next t ∧
    exec i { s with cols := cols } = .next { t with cols := cols } ∧
    (i ≠ .init → exec i { s with lines := lines } = .next { t with lines := lines })

/-- R67: the events a request emits, and everything but BUSERR that it leaves, do not depend on the bus's answers. -/
def Obligations.BusAnswersOnlySetBuserr : Prop :=
  ∀ (i : Instr) (s : State) (busIn : List Ack) (draws : Nat), ∃ t t', exec i s = .next t ∧
    exec i { s with busIn := busIn, draws := draws } = .next t' ∧
    t'.tr.map outOf = t.tr.map outOf ∧ withAnswersOf t t' = t

/-- R75: a step only appends to the trace; no event is ever removed, changed or reordered. -/
def Obligations.TraceOnlyGrows : Prop :=
  ∀ s t : State, step s = .next t → s.tr <+: t.tr

/-- R65, R72, R98, R99, R131: at the wiring of R98 and the constants of R100 and R101 (INIT's nibbles) every byte that a
step writes goes to DEV_ADDR and is one of the three forms of R99, with R/W low, and carries the backlight bit that BL
holds after the step (R137). -/
def Obligations.OnlyExpanderBytesAreWritten : Prop :=
  ∀ s t : State, s.par.wired → s.par.coded → step s = .next t → ∃ new, t.tr = s.tr ++ new ∧
    ∀ (a : DevAddr) (b : Byte) (answer : Ack), Event.w a b answer ∈ new →
      a = s.devAddr ∧ IsExpanderByte t.bl b ∧ b.getLsbD 1 = false ∧ b.getLsbD 3 = t.bl

/-- R289: the writes and the sum of the delays of every request, the sums at the default parameters, and none for a
reserved opcode byte. -/
def Obligations.RequestDurationsFollowTable : Prop :=
  (∀ (i : Instr) (s : State), ∃ (t : State) (new : List Event), exec i s = .next t ∧ t.tr = s.tr ++ new ∧
    writeCount new = tableWrites i ∧ totalDelay new = tableDelay s.par i) ∧
  (∀ i : Instr, tableDelay Config.params i =
    match i with
    | .init => 10962000
    | .clear => 2102000
    | .home => 2102000
    | .createchar _ _ => 918000
    | .printstr text => text.length * 102000
    | .backlight => 0
    | .nobacklight => 0
    | .drawHgraph _ _ _ _ => 0
    | .drawVgraph _ _ _ _ => 0
    | _ => 102000) ∧
  (∀ (s : State) (b : Byte) (rest : List Byte), s.rx = .idle → s.req = b :: rest → (b.toNat = 0 ∨ 0x18 ≤ b.toNat) →
    ∃ t, step s = .next t ∧ t.tr = s.tr)

/-! ## What the controller and the expander take -/

/-- R138, R139: when every write of a `Send` is acknowledged, the controller takes exactly two latches: the high nibble,
then the low one, both with the mode's RS. `before` is the write before it, or the unknown outputs after reset (log entry
13), with Enable low or high: a `Send` begins with an Enable-high write, which is no falling edge. -/
def Obligations.AcknowledgedSendIsTwoLatches : Prop :=
  ∀ (v : Byte) (m : Mode) (s : State) (before : Byte × Ack), s.par.wired →
    ∃ new, (send v m s).tr = s.tr ++ new ∧
      ((∀ e ∈ new, nacked e = false) →
        latches before new = [⟨v.extractLsb' 4 4, decide (m = .data)⟩, ⟨v.extractLsb' 0 4, decide (m = .data)⟩])

/-- R225: a backlight request appends one write, whose Enable bit is 0; so it makes no latch when the write before it left
Enable low, and no write after it makes one with it. After a write, or unknown outputs (log entry 13), with Enable high it
does make a falling edge: the exception of R225, one latch when both are acknowledged. -/
def Obligations.BacklightWriteLatchesNothing : Prop :=
  ∀ (i : Instr) (s : State) (b0 : Byte) (a0 : Ack), s.par.wired → (i = .backlight ∨ i = .nobacklight) →
    ∃ t b answer, exec i s = .next t ∧ t.tr = s.tr ++ [.w s.devAddr b answer] ∧ b.getLsbD 2 = false ∧
      (b0.getLsbD 2 = false → latches (b0, a0) [.w s.devAddr b answer] = []) ∧
      (∀ (a : DevAddr) (b' : Byte) (answer' : Ack), latches (b, answer) [.w a b' answer'] = []) ∧
      (b0.getLsbD 2 = true → a0 = .ack → answer = .ack → latches (b0, a0) [.w s.devAddr b answer] = [⟨0, false⟩])

/-- R37, R66: after a write answered `ACK` the expander drives its byte; a `NACK` does not update EXP and leaves the
outputs unknown. -/
def Obligations.ExpanderHoldsLastAcknowledgedByte : Prop :=
  ∀ (v : Byte) (s : State),
    (nextAnswer s = .ack → (busWrite s.devAddr v s).exp = some v ∧ (busWrite s.devAddr v s).outputs = some v) ∧
    (nextAnswer s = .nack → (busWrite s.devAddr v s).exp = s.exp ∧ (busWrite s.devAddr v s).outputs = none)

/-! ## The whole machine -/

/-- The invariant holds at reset, for all straps and all legal, wired and coded parameters, and at `State.reset` itself. -/
def Obligations.InvariantHoldsAtReset : Prop :=
  (∀ (st : Straps) (p : Params), p.wired → p.legal → p.coded → Inv (State.resetWith st p)) ∧ Inv State.reset

/-- Every step keeps the invariant: the decoder state stays proper, the reserved bits 0 (R30), the trace keeps the
protocol and its times (R133, R134, R139, R286), and the flags mirror what the controller was told (R38). -/
def Obligations.EveryStepKeepsInvariant : Prop :=
  ∀ s t : State, Inv s → step s = .next t → Inv t

/-- R240: in a proper decoder state no error stops the bridge: every step answers a next state. -/
def Obligations.BridgeNeverStops : Prop :=
  ∀ s : State, RxOk s → ∃ t, step s = .next t ∧ RxOk t

/-- R133, R134, R286: from any decoder state and registers, a step adds only whole pulses with their times to a trace
that keeps the protocol. -/
def Obligations.EveryStepKeepsBusProtocol : Prop :=
  ∀ s t : State, s.par.wired → s.par.legal → s.par.coded → Monitor.accepts s.tr → step s = .next t → Monitor.accepts t.tr

/-- R2: the controller is driven in its 4-bit interface mode only: every FUNCTIONSET byte that a step sends has `DL` = 0, and
INIT sends one. (The three recovery nibbles 0x3 of INIT, which stand before it, are no bytes: R153, R139.) -/
def Obligations.ControllerIsDrivenInFourBitModeOnly : Prop :=
  ∀ s t : State, Inv s → step s = .next t → ∃ new, (monitor t.tr).sent = (monitor s.tr).sent ++ new ∧
    (∀ x ∈ new, isFunctionSet x = true → x.2.getLsbD 4 = false) ∧
    ((∃ ret, s.rx = .exec (.request .init) ret) → ∃ x ∈ new, isFunctionSet x = true)

/-- R30: in every reachable state the reserved bits of FUNC, CTRL and ENTRY are 0. -/
def Obligations.ReservedFlagBitsStayZero : Prop :=
  ∀ s : State, Reachable s → s.func &&& 0xE3 = 0 ∧ s.ctrl &&& 0xF8 = 0 ∧ s.entry &&& 0xFC = 0

/-- R26, R151: in every reachable state FUNC.DL and FUNC.F are 0, and once INIT has run N is 1 iff LINES >= 2. -/
def Obligations.FuncHoldsComputedLineMode : Prop :=
  ∀ s : State, Reachable s → s.func.getLsbD 4 = false ∧ s.func.getLsbD 2 = false ∧
    (s.metaState = .oper → (s.func.getLsbD 3 = true ↔ 2 ≤ s.lines.toNat))

/-- R38: the flag-mirror invariant, in every reachable state; and no request changes CTRL or ENTRY without sending the whole
byte. -/
def Obligations.FlagsMirrorLastTransmitted : Prop :=
  (∀ s : State, Reachable s → (s.rx = .idle ∨ s.rx = .stream) → s.metaState = .oper → s.faults.buserr = false →
    lastDisplayControl s.tr = some (0x08 ||| s.ctrl) ∧ lastEntryMode s.tr = some (0x04 ||| s.entry)) ∧
  (∀ (i : Instr) (s : State), ∃ (t : State) (new : List Event), exec i s = .next t ∧ t.tr = s.tr ++ new ∧
    (t.ctrl ≠ s.ctrl → sendOuts s (s.par.codes.displayControl ||| t.ctrl) .command <:+: new.map outOf) ∧
    (t.entry ≠ s.entry → sendOuts s (s.par.codes.entryModeSet ||| t.entry) .command <:+: new.map outOf))

/-- R35: in every reachable state the operand buffer holds at most 9 bytes. -/
def Obligations.OperandBufferHoldsAtMostNine : Prop :=
  ∀ (s : State) (op : Byte) (buf : List Byte) (k : Nat), Reachable s → s.rx = .collect op buf k →
    1 ≤ k ∧ buf.length ≤ 9

/-- R177: after INIT and any sequence of toggle and entry-mode requests, each bit of CTRL and ENTRY is what the last
request that named it made of it, or else the baseline's; at the default constants, which place the bits (R27, R28). -/
def Obligations.ToggleHistoryDeterminesFlags : Prop :=
  ∀ (is : List Instr) (s : State), s.par.coded → (∀ i ∈ is, (flagEffect i).isSome) → ∃ t, execAll (.init :: is) s = .next t ∧
    (∀ n, n < 3 → t.ctrl.getLsbD n = lastEffect n is (s.par.initCtrl.getLsbD n)) ∧
    (∀ n, n < 2 → t.entry.getLsbD n = lastEffect (n + 8) is (s.par.initEntry.getLsbD n)) ∧
    t.ctrl &&& 0xF8 = 0 ∧ t.entry &&& 0xFC = 0

/-- R177, R224: every other request but INIT leaves CTRL and ENTRY unchanged, the backlight requests among them. -/
def Obligations.OtherRequestsKeepFlags : Prop :=
  ∀ (i : Instr) (s : State), i ≠ .init → flagEffect i = none →
    ∃ t, exec i s = .next t ∧ t.ctrl = s.ctrl ∧ t.entry = s.entry ∧ t.func = s.func
end

