-- ==== Sys2Proof/Laws/PerInstr.lean ====
section
/-! SUPPORT. Per-instruction statements about the requests as syntax. Family `OpcodeFits`: a request's encoding begins
with its opcode byte, that byte is one of 0x01 to 0x17, and, but for PRINTSTR, it gives the encoding's length
(spec/30_encoding.md R91, R97). -/

namespace Sys2Proof.Laws.OpcodeFits

/-- The statement for one request. -/
def Statement (i : Instr) : Prop :=
  (encode i).head? = some i.opcode ∧ isReserved i.opcode = false ∧
    (i.opcode ≠ opPrintstr → (encode i).length = requestLength i.opcode)

theorem init : Statement .init := ⟨rfl, rfl, fun _ => rfl⟩

theorem clear : Statement .clear := ⟨rfl, rfl, fun _ => rfl⟩

theorem home : Statement .home := ⟨rfl, rfl, fun _ => rfl⟩

theorem setpos (line col : Byte) : Statement (.setpos line col) :=
  ⟨rfl, rfl, fun _ => rfl⟩

theorem display : Statement .display := ⟨rfl, rfl, fun _ => rfl⟩

theorem nodisplay : Statement .nodisplay := ⟨rfl, rfl, fun _ => rfl⟩

theorem cursor : Statement .cursor := ⟨rfl, rfl, fun _ => rfl⟩

theorem nocursor : Statement .nocursor := ⟨rfl, rfl, fun _ => rfl⟩

theorem blink : Statement .blink := ⟨rfl, rfl, fun _ => rfl⟩

theorem noblink : Statement .noblink := ⟨rfl, rfl, fun _ => rfl⟩

theorem scrollLeft : Statement .scrollLeft := ⟨rfl, rfl, fun _ => rfl⟩

theorem scrollRight : Statement .scrollRight := ⟨rfl, rfl, fun _ => rfl⟩

theorem leftToRight : Statement .leftToRight := ⟨rfl, rfl, fun _ => rfl⟩

theorem rightToLeft : Statement .rightToLeft := ⟨rfl, rfl, fun _ => rfl⟩

theorem autoscroll : Statement .autoscroll := ⟨rfl, rfl, fun _ => rfl⟩

theorem noautoscroll : Statement .noautoscroll := ⟨rfl, rfl, fun _ => rfl⟩

theorem createchar (slot : Byte) (glyph : Glyph) : Statement (.createchar slot glyph) :=
  ⟨rfl, rfl, fun _ => rfl⟩

theorem backlight : Statement .backlight := ⟨rfl, rfl, fun _ => rfl⟩

theorem nobacklight : Statement .nobacklight := ⟨rfl, rfl, fun _ => rfl⟩

theorem write (c : Byte) : Statement (.write c) :=
  ⟨rfl, rfl, fun _ => rfl⟩

theorem printstr (text : List Byte) : Statement (.printstr text) :=
  ⟨rfl, rfl, fun h => absurd rfl h⟩

theorem drawHgraph (a0 a1 a2 a3 : Byte) : Statement (.drawHgraph a0 a1 a2 a3) :=
  ⟨rfl, rfl, fun _ => rfl⟩

theorem drawVgraph (a0 a1 a2 a3 : Byte) : Statement (.drawVgraph a0 a1 a2 a3) :=
  ⟨rfl, rfl, fun _ => rfl⟩

end Sys2Proof.Laws.OpcodeFits
end

