-- ==== Sys2Proof/Laws/State.lean ====
section
/-! SUPPORT. The fields of the state after each named update, one lemma per field per update, so that no proof unfolds
a record update. -/

namespace Sys2Proof.Machine

/-! ## `raise` -/

@[simp] theorem raise_devAddr (x : FaultCause) (s : State) : (raise x s).devAddr = s.devAddr := rfl
@[simp] theorem raise_lines (x : FaultCause) (s : State) : (raise x s).lines = s.lines := rfl
@[simp] theorem raise_cols (x : FaultCause) (s : State) : (raise x s).cols = s.cols := rfl
@[simp] theorem raise_par (x : FaultCause) (s : State) : (raise x s).par = s.par := rfl
@[simp] theorem raise_func (x : FaultCause) (s : State) : (raise x s).func = s.func := rfl
@[simp] theorem raise_ctrl (x : FaultCause) (s : State) : (raise x s).ctrl = s.ctrl := rfl
@[simp] theorem raise_entry (x : FaultCause) (s : State) : (raise x s).entry = s.entry := rfl
@[simp] theorem raise_bl (x : FaultCause) (s : State) : (raise x s).bl = s.bl := rfl
@[simp] theorem raise_metaState (x : FaultCause) (s : State) : (raise x s).metaState = s.metaState := rfl
@[simp] theorem raise_faults (x : FaultCause) (s : State) : (raise x s).faults = markFault x s.faults := rfl
@[simp] theorem raise_aspace (x : FaultCause) (s : State) : (raise x s).aspace = s.aspace := rfl
@[simp] theorem raise_rx (x : FaultCause) (s : State) : (raise x s).rx = s.rx := rfl
@[simp] theorem raise_tr (x : FaultCause) (s : State) : (raise x s).tr = s.tr := rfl
@[simp] theorem raise_req (x : FaultCause) (s : State) : (raise x s).req = s.req := rfl
@[simp] theorem raise_busIn (x : FaultCause) (s : State) : (raise x s).busIn = s.busIn := rfl
@[simp] theorem raise_draws (x : FaultCause) (s : State) : (raise x s).draws = s.draws := rfl

/-! ## `delay` -/

@[simp] theorem delay_devAddr (ns : Nat) (s : State) : (delay ns s).devAddr = s.devAddr := rfl
@[simp] theorem delay_lines (ns : Nat) (s : State) : (delay ns s).lines = s.lines := rfl
@[simp] theorem delay_cols (ns : Nat) (s : State) : (delay ns s).cols = s.cols := rfl
@[simp] theorem delay_par (ns : Nat) (s : State) : (delay ns s).par = s.par := rfl
@[simp] theorem delay_func (ns : Nat) (s : State) : (delay ns s).func = s.func := rfl
@[simp] theorem delay_ctrl (ns : Nat) (s : State) : (delay ns s).ctrl = s.ctrl := rfl
@[simp] theorem delay_entry (ns : Nat) (s : State) : (delay ns s).entry = s.entry := rfl
@[simp] theorem delay_bl (ns : Nat) (s : State) : (delay ns s).bl = s.bl := rfl
@[simp] theorem delay_metaState (ns : Nat) (s : State) : (delay ns s).metaState = s.metaState := rfl
@[simp] theorem delay_faults (ns : Nat) (s : State) : (delay ns s).faults = s.faults := rfl
@[simp] theorem delay_aspace (ns : Nat) (s : State) : (delay ns s).aspace = s.aspace := rfl
@[simp] theorem delay_rx (ns : Nat) (s : State) : (delay ns s).rx = s.rx := rfl
@[simp] theorem delay_tr (ns : Nat) (s : State) : (delay ns s).tr = s.tr ++ [.d ns] := rfl
@[simp] theorem delay_req (ns : Nat) (s : State) : (delay ns s).req = s.req := rfl
@[simp] theorem delay_busIn (ns : Nat) (s : State) : (delay ns s).busIn = s.busIn := rfl
@[simp] theorem delay_draws (ns : Nat) (s : State) : (delay ns s).draws = s.draws := rfl

/-! ## The register writes -/

@[simp] theorem setFunc_devAddr (v : Byte) (s : State) : (setFunc v s).devAddr = s.devAddr := rfl
@[simp] theorem setFunc_lines (v : Byte) (s : State) : (setFunc v s).lines = s.lines := rfl
@[simp] theorem setFunc_cols (v : Byte) (s : State) : (setFunc v s).cols = s.cols := rfl
@[simp] theorem setFunc_par (v : Byte) (s : State) : (setFunc v s).par = s.par := rfl
@[simp] theorem setFunc_func (v : Byte) (s : State) : (setFunc v s).func = v := rfl
@[simp] theorem setFunc_ctrl (v : Byte) (s : State) : (setFunc v s).ctrl = s.ctrl := rfl
@[simp] theorem setFunc_entry (v : Byte) (s : State) : (setFunc v s).entry = s.entry := rfl
@[simp] theorem setFunc_bl (v : Byte) (s : State) : (setFunc v s).bl = s.bl := rfl
@[simp] theorem setFunc_metaState (v : Byte) (s : State) : (setFunc v s).metaState = s.metaState := rfl
@[simp] theorem setFunc_faults (v : Byte) (s : State) : (setFunc v s).faults = s.faults := rfl
@[simp] theorem setFunc_aspace (v : Byte) (s : State) : (setFunc v s).aspace = s.aspace := rfl
@[simp] theorem setFunc_rx (v : Byte) (s : State) : (setFunc v s).rx = s.rx := rfl
@[simp] theorem setFunc_tr (v : Byte) (s : State) : (setFunc v s).tr = s.tr := rfl
@[simp] theorem setFunc_req (v : Byte) (s : State) : (setFunc v s).req = s.req := rfl
@[simp] theorem setFunc_busIn (v : Byte) (s : State) : (setFunc v s).busIn = s.busIn := rfl
@[simp] theorem setFunc_draws (v : Byte) (s : State) : (setFunc v s).draws = s.draws := rfl

@[simp] theorem setCtrl_devAddr (v : Byte) (s : State) : (setCtrl v s).devAddr = s.devAddr := rfl
@[simp] theorem setCtrl_lines (v : Byte) (s : State) : (setCtrl v s).lines = s.lines := rfl
@[simp] theorem setCtrl_cols (v : Byte) (s : State) : (setCtrl v s).cols = s.cols := rfl
@[simp] theorem setCtrl_par (v : Byte) (s : State) : (setCtrl v s).par = s.par := rfl
@[simp] theorem setCtrl_func (v : Byte) (s : State) : (setCtrl v s).func = s.func := rfl
@[simp] theorem setCtrl_ctrl (v : Byte) (s : State) : (setCtrl v s).ctrl = v := rfl
@[simp] theorem setCtrl_entry (v : Byte) (s : State) : (setCtrl v s).entry = s.entry := rfl
@[simp] theorem setCtrl_bl (v : Byte) (s : State) : (setCtrl v s).bl = s.bl := rfl
@[simp] theorem setCtrl_metaState (v : Byte) (s : State) : (setCtrl v s).metaState = s.metaState := rfl
@[simp] theorem setCtrl_faults (v : Byte) (s : State) : (setCtrl v s).faults = s.faults := rfl
@[simp] theorem setCtrl_aspace (v : Byte) (s : State) : (setCtrl v s).aspace = s.aspace := rfl
@[simp] theorem setCtrl_rx (v : Byte) (s : State) : (setCtrl v s).rx = s.rx := rfl
@[simp] theorem setCtrl_tr (v : Byte) (s : State) : (setCtrl v s).tr = s.tr := rfl
@[simp] theorem setCtrl_req (v : Byte) (s : State) : (setCtrl v s).req = s.req := rfl
@[simp] theorem setCtrl_busIn (v : Byte) (s : State) : (setCtrl v s).busIn = s.busIn := rfl
@[simp] theorem setCtrl_draws (v : Byte) (s : State) : (setCtrl v s).draws = s.draws := rfl

@[simp] theorem setEntry_devAddr (v : Byte) (s : State) : (setEntry v s).devAddr = s.devAddr := rfl
@[simp] theorem setEntry_lines (v : Byte) (s : State) : (setEntry v s).lines = s.lines := rfl
@[simp] theorem setEntry_cols (v : Byte) (s : State) : (setEntry v s).cols = s.cols := rfl
@[simp] theorem setEntry_par (v : Byte) (s : State) : (setEntry v s).par = s.par := rfl
@[simp] theorem setEntry_func (v : Byte) (s : State) : (setEntry v s).func = s.func := rfl
@[simp] theorem setEntry_ctrl (v : Byte) (s : State) : (setEntry v s).ctrl = s.ctrl := rfl
@[simp] theorem setEntry_entry (v : Byte) (s : State) : (setEntry v s).entry = v := rfl
@[simp] theorem setEntry_bl (v : Byte) (s : State) : (setEntry v s).bl = s.bl := rfl
@[simp] theorem setEntry_metaState (v : Byte) (s : State) : (setEntry v s).metaState = s.metaState := rfl
@[simp] theorem setEntry_faults (v : Byte) (s : State) : (setEntry v s).faults = s.faults := rfl
@[simp] theorem setEntry_aspace (v : Byte) (s : State) : (setEntry v s).aspace = s.aspace := rfl
@[simp] theorem setEntry_rx (v : Byte) (s : State) : (setEntry v s).rx = s.rx := rfl
@[simp] theorem setEntry_tr (v : Byte) (s : State) : (setEntry v s).tr = s.tr := rfl
@[simp] theorem setEntry_req (v : Byte) (s : State) : (setEntry v s).req = s.req := rfl
@[simp] theorem setEntry_busIn (v : Byte) (s : State) : (setEntry v s).busIn = s.busIn := rfl
@[simp] theorem setEntry_draws (v : Byte) (s : State) : (setEntry v s).draws = s.draws := rfl

@[simp] theorem setBl_devAddr (v : Bool) (s : State) : (setBl v s).devAddr = s.devAddr := rfl
@[simp] theorem setBl_lines (v : Bool) (s : State) : (setBl v s).lines = s.lines := rfl
@[simp] theorem setBl_cols (v : Bool) (s : State) : (setBl v s).cols = s.cols := rfl
@[simp] theorem setBl_par (v : Bool) (s : State) : (setBl v s).par = s.par := rfl
@[simp] theorem setBl_func (v : Bool) (s : State) : (setBl v s).func = s.func := rfl
@[simp] theorem setBl_ctrl (v : Bool) (s : State) : (setBl v s).ctrl = s.ctrl := rfl
@[simp] theorem setBl_entry (v : Bool) (s : State) : (setBl v s).entry = s.entry := rfl
@[simp] theorem setBl_bl (v : Bool) (s : State) : (setBl v s).bl = v := rfl
@[simp] theorem setBl_metaState (v : Bool) (s : State) : (setBl v s).metaState = s.metaState := rfl
@[simp] theorem setBl_faults (v : Bool) (s : State) : (setBl v s).faults = s.faults := rfl
@[simp] theorem setBl_aspace (v : Bool) (s : State) : (setBl v s).aspace = s.aspace := rfl
@[simp] theorem setBl_rx (v : Bool) (s : State) : (setBl v s).rx = s.rx := rfl
@[simp] theorem setBl_tr (v : Bool) (s : State) : (setBl v s).tr = s.tr := rfl
@[simp] theorem setBl_req (v : Bool) (s : State) : (setBl v s).req = s.req := rfl
@[simp] theorem setBl_busIn (v : Bool) (s : State) : (setBl v s).busIn = s.busIn := rfl
@[simp] theorem setBl_draws (v : Bool) (s : State) : (setBl v s).draws = s.draws := rfl

@[simp] theorem setMeta_devAddr (v : MetaState) (s : State) : (setMeta v s).devAddr = s.devAddr := rfl
@[simp] theorem setMeta_lines (v : MetaState) (s : State) : (setMeta v s).lines = s.lines := rfl
@[simp] theorem setMeta_cols (v : MetaState) (s : State) : (setMeta v s).cols = s.cols := rfl
@[simp] theorem setMeta_par (v : MetaState) (s : State) : (setMeta v s).par = s.par := rfl
@[simp] theorem setMeta_func (v : MetaState) (s : State) : (setMeta v s).func = s.func := rfl
@[simp] theorem setMeta_ctrl (v : MetaState) (s : State) : (setMeta v s).ctrl = s.ctrl := rfl
@[simp] theorem setMeta_entry (v : MetaState) (s : State) : (setMeta v s).entry = s.entry := rfl
@[simp] theorem setMeta_bl (v : MetaState) (s : State) : (setMeta v s).bl = s.bl := rfl
@[simp] theorem setMeta_metaState (v : MetaState) (s : State) : (setMeta v s).metaState = v := rfl
@[simp] theorem setMeta_faults (v : MetaState) (s : State) : (setMeta v s).faults = s.faults := rfl
@[simp] theorem setMeta_aspace (v : MetaState) (s : State) : (setMeta v s).aspace = s.aspace := rfl
@[simp] theorem setMeta_rx (v : MetaState) (s : State) : (setMeta v s).rx = s.rx := rfl
@[simp] theorem setMeta_tr (v : MetaState) (s : State) : (setMeta v s).tr = s.tr := rfl
@[simp] theorem setMeta_req (v : MetaState) (s : State) : (setMeta v s).req = s.req := rfl
@[simp] theorem setMeta_busIn (v : MetaState) (s : State) : (setMeta v s).busIn = s.busIn := rfl
@[simp] theorem setMeta_draws (v : MetaState) (s : State) : (setMeta v s).draws = s.draws := rfl

@[simp] theorem setAspace_devAddr (v : Aspace) (s : State) : (setAspace v s).devAddr = s.devAddr := rfl
@[simp] theorem setAspace_lines (v : Aspace) (s : State) : (setAspace v s).lines = s.lines := rfl
@[simp] theorem setAspace_cols (v : Aspace) (s : State) : (setAspace v s).cols = s.cols := rfl
@[simp] theorem setAspace_par (v : Aspace) (s : State) : (setAspace v s).par = s.par := rfl
@[simp] theorem setAspace_func (v : Aspace) (s : State) : (setAspace v s).func = s.func := rfl
@[simp] theorem setAspace_ctrl (v : Aspace) (s : State) : (setAspace v s).ctrl = s.ctrl := rfl
@[simp] theorem setAspace_entry (v : Aspace) (s : State) : (setAspace v s).entry = s.entry := rfl
@[simp] theorem setAspace_bl (v : Aspace) (s : State) : (setAspace v s).bl = s.bl := rfl
@[simp] theorem setAspace_metaState (v : Aspace) (s : State) : (setAspace v s).metaState = s.metaState := rfl
@[simp] theorem setAspace_faults (v : Aspace) (s : State) : (setAspace v s).faults = s.faults := rfl
@[simp] theorem setAspace_aspace (v : Aspace) (s : State) : (setAspace v s).aspace = v := rfl
@[simp] theorem setAspace_rx (v : Aspace) (s : State) : (setAspace v s).rx = s.rx := rfl
@[simp] theorem setAspace_tr (v : Aspace) (s : State) : (setAspace v s).tr = s.tr := rfl
@[simp] theorem setAspace_req (v : Aspace) (s : State) : (setAspace v s).req = s.req := rfl
@[simp] theorem setAspace_busIn (v : Aspace) (s : State) : (setAspace v s).busIn = s.busIn := rfl
@[simp] theorem setAspace_draws (v : Aspace) (s : State) : (setAspace v s).draws = s.draws := rfl

@[simp] theorem setRx_devAddr (v : Rx) (s : State) : (setRx v s).devAddr = s.devAddr := rfl
@[simp] theorem setRx_lines (v : Rx) (s : State) : (setRx v s).lines = s.lines := rfl
@[simp] theorem setRx_cols (v : Rx) (s : State) : (setRx v s).cols = s.cols := rfl
@[simp] theorem setRx_par (v : Rx) (s : State) : (setRx v s).par = s.par := rfl
@[simp] theorem setRx_func (v : Rx) (s : State) : (setRx v s).func = s.func := rfl
@[simp] theorem setRx_ctrl (v : Rx) (s : State) : (setRx v s).ctrl = s.ctrl := rfl
@[simp] theorem setRx_entry (v : Rx) (s : State) : (setRx v s).entry = s.entry := rfl
@[simp] theorem setRx_bl (v : Rx) (s : State) : (setRx v s).bl = s.bl := rfl
@[simp] theorem setRx_metaState (v : Rx) (s : State) : (setRx v s).metaState = s.metaState := rfl
@[simp] theorem setRx_faults (v : Rx) (s : State) : (setRx v s).faults = s.faults := rfl
@[simp] theorem setRx_aspace (v : Rx) (s : State) : (setRx v s).aspace = s.aspace := rfl
@[simp] theorem setRx_rx (v : Rx) (s : State) : (setRx v s).rx = v := rfl
@[simp] theorem setRx_tr (v : Rx) (s : State) : (setRx v s).tr = s.tr := rfl
@[simp] theorem setRx_req (v : Rx) (s : State) : (setRx v s).req = s.req := rfl
@[simp] theorem setRx_busIn (v : Rx) (s : State) : (setRx v s).busIn = s.busIn := rfl
@[simp] theorem setRx_draws (v : Rx) (s : State) : (setRx v s).draws = s.draws := rfl

@[simp] theorem setReq_devAddr (v : List Byte) (s : State) : (setReq v s).devAddr = s.devAddr := rfl
@[simp] theorem setReq_lines (v : List Byte) (s : State) : (setReq v s).lines = s.lines := rfl
@[simp] theorem setReq_cols (v : List Byte) (s : State) : (setReq v s).cols = s.cols := rfl
@[simp] theorem setReq_par (v : List Byte) (s : State) : (setReq v s).par = s.par := rfl
@[simp] theorem setReq_func (v : List Byte) (s : State) : (setReq v s).func = s.func := rfl
@[simp] theorem setReq_ctrl (v : List Byte) (s : State) : (setReq v s).ctrl = s.ctrl := rfl
@[simp] theorem setReq_entry (v : List Byte) (s : State) : (setReq v s).entry = s.entry := rfl
@[simp] theorem setReq_bl (v : List Byte) (s : State) : (setReq v s).bl = s.bl := rfl
@[simp] theorem setReq_metaState (v : List Byte) (s : State) : (setReq v s).metaState = s.metaState := rfl
@[simp] theorem setReq_faults (v : List Byte) (s : State) : (setReq v s).faults = s.faults := rfl
@[simp] theorem setReq_aspace (v : List Byte) (s : State) : (setReq v s).aspace = s.aspace := rfl
@[simp] theorem setReq_rx (v : List Byte) (s : State) : (setReq v s).rx = s.rx := rfl
@[simp] theorem setReq_tr (v : List Byte) (s : State) : (setReq v s).tr = s.tr := rfl
@[simp] theorem setReq_req (v : List Byte) (s : State) : (setReq v s).req = v := rfl
@[simp] theorem setReq_busIn (v : List Byte) (s : State) : (setReq v s).busIn = s.busIn := rfl
@[simp] theorem setReq_draws (v : List Byte) (s : State) : (setReq v s).draws = s.draws := rfl

/-! ## `takeAnswer`: only the answers to come change -/

@[simp] theorem takeAnswer_devAddr (s : State) : (takeAnswer s).devAddr = s.devAddr := by
  unfold takeAnswer; split <;> rfl
@[simp] theorem takeAnswer_lines (s : State) : (takeAnswer s).lines = s.lines := by
  unfold takeAnswer; split <;> rfl
@[simp] theorem takeAnswer_cols (s : State) : (takeAnswer s).cols = s.cols := by
  unfold takeAnswer; split <;> rfl
@[simp] theorem takeAnswer_par (s : State) : (takeAnswer s).par = s.par := by
  unfold takeAnswer; split <;> rfl
@[simp] theorem takeAnswer_func (s : State) : (takeAnswer s).func = s.func := by
  unfold takeAnswer; split <;> rfl
@[simp] theorem takeAnswer_ctrl (s : State) : (takeAnswer s).ctrl = s.ctrl := by
  unfold takeAnswer; split <;> rfl
@[simp] theorem takeAnswer_entry (s : State) : (takeAnswer s).entry = s.entry := by
  unfold takeAnswer; split <;> rfl
@[simp] theorem takeAnswer_bl (s : State) : (takeAnswer s).bl = s.bl := by
  unfold takeAnswer; split <;> rfl
@[simp] theorem takeAnswer_metaState (s : State) : (takeAnswer s).metaState = s.metaState := by
  unfold takeAnswer; split <;> rfl
@[simp] theorem takeAnswer_faults (s : State) : (takeAnswer s).faults = s.faults := by
  unfold takeAnswer; split <;> rfl
@[simp] theorem takeAnswer_aspace (s : State) : (takeAnswer s).aspace = s.aspace := by
  unfold takeAnswer; split <;> rfl
@[simp] theorem takeAnswer_rx (s : State) : (takeAnswer s).rx = s.rx := by
  unfold takeAnswer; split <;> rfl
@[simp] theorem takeAnswer_tr (s : State) : (takeAnswer s).tr = s.tr := by
  unfold takeAnswer; split <;> rfl
@[simp] theorem takeAnswer_req (s : State) : (takeAnswer s).req = s.req := by
  unfold takeAnswer; split <;> rfl

/-! ## `takeAnswers`: the lined-up answers go first, then free draws -/

@[simp] theorem takeAnswers_busIn (n : Nat) (s : State) : (takeAnswers n s).busIn = s.busIn.drop n := by
  induction n generalizing s with
  | zero => rfl
  | succ n ih =>
    rw [takeAnswers, ih, takeAnswer]
    rcases s.busIn with _ | ⟨a, rest⟩ <;> simp

@[simp] theorem takeAnswers_draws (n : Nat) (s : State) : (takeAnswers n s).draws = s.draws + (n - s.busIn.length) := by
  induction n generalizing s with
  | zero => simp [takeAnswers]
  | succ n ih =>
    rw [takeAnswers, ih, takeAnswer]
    rcases s.busIn with _ | ⟨a, rest⟩ <;> simp
    omega

/-! ## `busWrite` -/

@[simp] theorem busWrite_devAddr (a : DevAddr) (b : Byte) (s : State) : (busWrite a b s).devAddr = s.devAddr := by
  simp [busWrite]
@[simp] theorem busWrite_lines (a : DevAddr) (b : Byte) (s : State) : (busWrite a b s).lines = s.lines := by
  simp [busWrite]
@[simp] theorem busWrite_cols (a : DevAddr) (b : Byte) (s : State) : (busWrite a b s).cols = s.cols := by
  simp [busWrite]
@[simp] theorem busWrite_par (a : DevAddr) (b : Byte) (s : State) : (busWrite a b s).par = s.par := by
  simp [busWrite]
@[simp] theorem busWrite_func (a : DevAddr) (b : Byte) (s : State) : (busWrite a b s).func = s.func := by
  simp [busWrite]
@[simp] theorem busWrite_ctrl (a : DevAddr) (b : Byte) (s : State) : (busWrite a b s).ctrl = s.ctrl := by
  simp [busWrite]
@[simp] theorem busWrite_entry (a : DevAddr) (b : Byte) (s : State) : (busWrite a b s).entry = s.entry := by
  simp [busWrite]
@[simp] theorem busWrite_bl (a : DevAddr) (b : Byte) (s : State) : (busWrite a b s).bl = s.bl := by
  simp [busWrite]
@[simp] theorem busWrite_metaState (a : DevAddr) (b : Byte) (s : State) : (busWrite a b s).metaState = s.metaState := by
  simp [busWrite]
@[simp] theorem busWrite_faults (a : DevAddr) (b : Byte) (s : State) : (busWrite a b s).faults = s.faults := by
  simp [busWrite]
@[simp] theorem busWrite_aspace (a : DevAddr) (b : Byte) (s : State) : (busWrite a b s).aspace = s.aspace := by
  simp [busWrite]
@[simp] theorem busWrite_rx (a : DevAddr) (b : Byte) (s : State) : (busWrite a b s).rx = s.rx := by
  simp [busWrite]
@[simp] theorem busWrite_tr (a : DevAddr) (b : Byte) (s : State) :
    (busWrite a b s).tr = s.tr ++ [.w a b (nextAnswer s)] := rfl
@[simp] theorem busWrite_req (a : DevAddr) (b : Byte) (s : State) : (busWrite a b s).req = s.req := by
  simp [busWrite]
@[simp] theorem busWrite_busIn (a : DevAddr) (b : Byte) (s : State) : (busWrite a b s).busIn = (takeAnswer s).busIn := rfl
@[simp] theorem busWrite_draws (a : DevAddr) (b : Byte) (s : State) : (busWrite a b s).draws = (takeAnswer s).draws := rfl

/-! ## The checks: each changes at most its own sticky bit -/

theorem preinitCheck_eq (s : State) : preinitCheck s =
    { s with faults := { s.faults with preinit := s.faults.preinit || decide (s.metaState = .uninit) } } := by
  unfold preinitCheck
  split <;> simp_all [raise, markFault]

theorem reinitCheck_eq (s : State) : reinitCheck s =
    { s with faults := { s.faults with reinit := s.faults.reinit || decide (s.metaState = .oper) } } := by
  unfold reinitCheck
  split <;> simp_all [raise, markFault]

theorem cgstaleCheck_eq (s : State) : cgstaleCheck s =
    { s with faults := { s.faults with cgstale := s.faults.cgstale || decide (s.aspace = .cgram) } } := by
  unfold cgstaleCheck
  split <;> simp_all [raise, markFault]

@[simp] theorem preinitCheck_devAddr (s : State) : (preinitCheck s).devAddr = s.devAddr := by
  rw [preinitCheck_eq]
@[simp] theorem preinitCheck_lines (s : State) : (preinitCheck s).lines = s.lines := by
  rw [preinitCheck_eq]
@[simp] theorem preinitCheck_cols (s : State) : (preinitCheck s).cols = s.cols := by
  rw [preinitCheck_eq]
@[simp] theorem preinitCheck_par (s : State) : (preinitCheck s).par = s.par := by
  rw [preinitCheck_eq]
@[simp] theorem preinitCheck_func (s : State) : (preinitCheck s).func = s.func := by
  rw [preinitCheck_eq]
@[simp] theorem preinitCheck_ctrl (s : State) : (preinitCheck s).ctrl = s.ctrl := by
  rw [preinitCheck_eq]
@[simp] theorem preinitCheck_entry (s : State) : (preinitCheck s).entry = s.entry := by
  rw [preinitCheck_eq]
@[simp] theorem preinitCheck_bl (s : State) : (preinitCheck s).bl = s.bl := by
  rw [preinitCheck_eq]
@[simp] theorem preinitCheck_metaState (s : State) : (preinitCheck s).metaState = s.metaState := by
  rw [preinitCheck_eq]
@[simp] theorem preinitCheck_aspace (s : State) : (preinitCheck s).aspace = s.aspace := by
  rw [preinitCheck_eq]
@[simp] theorem preinitCheck_rx (s : State) : (preinitCheck s).rx = s.rx := by
  rw [preinitCheck_eq]
@[simp] theorem preinitCheck_tr (s : State) : (preinitCheck s).tr = s.tr := by
  rw [preinitCheck_eq]
@[simp] theorem preinitCheck_req (s : State) : (preinitCheck s).req = s.req := by
  rw [preinitCheck_eq]
@[simp] theorem preinitCheck_busIn (s : State) : (preinitCheck s).busIn = s.busIn := by
  rw [preinitCheck_eq]
@[simp] theorem preinitCheck_draws (s : State) : (preinitCheck s).draws = s.draws := by
  rw [preinitCheck_eq]
@[simp] theorem reinitCheck_devAddr (s : State) : (reinitCheck s).devAddr = s.devAddr := by
  rw [reinitCheck_eq]
@[simp] theorem reinitCheck_lines (s : State) : (reinitCheck s).lines = s.lines := by
  rw [reinitCheck_eq]
@[simp] theorem reinitCheck_cols (s : State) : (reinitCheck s).cols = s.cols := by
  rw [reinitCheck_eq]
@[simp] theorem reinitCheck_par (s : State) : (reinitCheck s).par = s.par := by
  rw [reinitCheck_eq]
@[simp] theorem reinitCheck_func (s : State) : (reinitCheck s).func = s.func := by
  rw [reinitCheck_eq]
@[simp] theorem reinitCheck_ctrl (s : State) : (reinitCheck s).ctrl = s.ctrl := by
  rw [reinitCheck_eq]
@[simp] theorem reinitCheck_entry (s : State) : (reinitCheck s).entry = s.entry := by
  rw [reinitCheck_eq]
@[simp] theorem reinitCheck_bl (s : State) : (reinitCheck s).bl = s.bl := by
  rw [reinitCheck_eq]
@[simp] theorem reinitCheck_metaState (s : State) : (reinitCheck s).metaState = s.metaState := by
  rw [reinitCheck_eq]
@[simp] theorem reinitCheck_aspace (s : State) : (reinitCheck s).aspace = s.aspace := by
  rw [reinitCheck_eq]
@[simp] theorem reinitCheck_rx (s : State) : (reinitCheck s).rx = s.rx := by
  rw [reinitCheck_eq]
@[simp] theorem reinitCheck_tr (s : State) : (reinitCheck s).tr = s.tr := by
  rw [reinitCheck_eq]
@[simp] theorem reinitCheck_req (s : State) : (reinitCheck s).req = s.req := by
  rw [reinitCheck_eq]
@[simp] theorem reinitCheck_busIn (s : State) : (reinitCheck s).busIn = s.busIn := by
  rw [reinitCheck_eq]
@[simp] theorem reinitCheck_draws (s : State) : (reinitCheck s).draws = s.draws := by
  rw [reinitCheck_eq]
@[simp] theorem cgstaleCheck_devAddr (s : State) : (cgstaleCheck s).devAddr = s.devAddr := by
  rw [cgstaleCheck_eq]
@[simp] theorem cgstaleCheck_lines (s : State) : (cgstaleCheck s).lines = s.lines := by
  rw [cgstaleCheck_eq]
@[simp] theorem cgstaleCheck_cols (s : State) : (cgstaleCheck s).cols = s.cols := by
  rw [cgstaleCheck_eq]
@[simp] theorem cgstaleCheck_par (s : State) : (cgstaleCheck s).par = s.par := by
  rw [cgstaleCheck_eq]
@[simp] theorem cgstaleCheck_func (s : State) : (cgstaleCheck s).func = s.func := by
  rw [cgstaleCheck_eq]
@[simp] theorem cgstaleCheck_ctrl (s : State) : (cgstaleCheck s).ctrl = s.ctrl := by
  rw [cgstaleCheck_eq]
@[simp] theorem cgstaleCheck_entry (s : State) : (cgstaleCheck s).entry = s.entry := by
  rw [cgstaleCheck_eq]
@[simp] theorem cgstaleCheck_bl (s : State) : (cgstaleCheck s).bl = s.bl := by
  rw [cgstaleCheck_eq]
@[simp] theorem cgstaleCheck_metaState (s : State) : (cgstaleCheck s).metaState = s.metaState := by
  rw [cgstaleCheck_eq]
@[simp] theorem cgstaleCheck_aspace (s : State) : (cgstaleCheck s).aspace = s.aspace := by
  rw [cgstaleCheck_eq]
@[simp] theorem cgstaleCheck_rx (s : State) : (cgstaleCheck s).rx = s.rx := by
  rw [cgstaleCheck_eq]
@[simp] theorem cgstaleCheck_tr (s : State) : (cgstaleCheck s).tr = s.tr := by
  rw [cgstaleCheck_eq]
@[simp] theorem cgstaleCheck_req (s : State) : (cgstaleCheck s).req = s.req := by
  rw [cgstaleCheck_eq]
@[simp] theorem cgstaleCheck_busIn (s : State) : (cgstaleCheck s).busIn = s.busIn := by
  rw [cgstaleCheck_eq]
@[simp] theorem cgstaleCheck_draws (s : State) : (cgstaleCheck s).draws = s.draws := by
  rw [cgstaleCheck_eq]

end Sys2Proof.Machine
end

