-- ==== Sys2Proof/Laws/Transmit.lean ====
section
/-! SUPPORT. What the sequencer's primitives and the operations built on them do, said once each as `Drives`: which
outputs they put on the bus, and that nothing else changes. -/

namespace Sys2Proof.Machine

/-! ## `Drives` -/

theorem Drives.refl (s : State) : Drives s s [] :=
  ⟨[], rfl, by simp⟩

theorem Drives.trans {s t u : State} {o1 o2 : List Out} (h1 : Drives s t o1) (h2 : Drives t u o2) :
    Drives s u (o1 ++ o2) := by
  obtain ⟨n1, hm1, ht⟩ := h1
  obtain ⟨n2, hm2, hu⟩ := h2
  refine ⟨n1 ++ n2, by simp [hm1, hm2], ?_⟩
  rw [ht] at hu
  simpa [Bool.or_assoc] using hu

/-! Registers that no output depends on can be written before or after. -/

theorem Drives.setFunc {s t : State} {o : List Out} (h : Drives s t o) (v : Byte) :
    Drives (Machine.setFunc v s) (Machine.setFunc v t) o := by
  obtain ⟨new, hm, ht⟩ := h
  exact ⟨new, hm, by rw [ht]; rfl⟩

theorem Drives.setCtrl {s t : State} {o : List Out} (h : Drives s t o) (v : Byte) :
    Drives (Machine.setCtrl v s) (Machine.setCtrl v t) o := by
  obtain ⟨new, hm, ht⟩ := h
  exact ⟨new, hm, by rw [ht]; rfl⟩

theorem Drives.setEntry {s t : State} {o : List Out} (h : Drives s t o) (v : Byte) :
    Drives (Machine.setEntry v s) (Machine.setEntry v t) o := by
  obtain ⟨new, hm, ht⟩ := h
  exact ⟨new, hm, by rw [ht]; rfl⟩

theorem Drives.setMeta {s t : State} {o : List Out} (h : Drives s t o) (v : MetaState) :
    Drives (Machine.setMeta v s) (Machine.setMeta v t) o := by
  obtain ⟨new, hm, ht⟩ := h
  exact ⟨new, hm, by rw [ht]; rfl⟩

theorem Drives.setAspace {s t : State} {o : List Out} (h : Drives s t o) (v : Aspace) :
    Drives (Machine.setAspace v s) (Machine.setAspace v t) o := by
  obtain ⟨new, hm, ht⟩ := h
  exact ⟨new, hm, by rw [ht]; rfl⟩

theorem Drives.setRx {s t : State} {o : List Out} (h : Drives s t o) (v : Rx) :
    Drives (Machine.setRx v s) (Machine.setRx v t) o := by
  obtain ⟨new, hm, ht⟩ := h
  exact ⟨new, hm, by rw [ht]; rfl⟩

theorem Drives.setReq {s t : State} {o : List Out} (h : Drives s t o) (v : List Byte) :
    Drives (Machine.setReq v s) (Machine.setReq v t) o := by
  obtain ⟨new, hm, ht⟩ := h
  exact ⟨new, hm, by rw [ht]; rfl⟩

/-- The sticky bits but BUSERR can be set before or after. -/
theorem Drives.withFaults {s t : State} {o : List Out} (h : Drives s t o) (p r c : Bool) :
    Drives { s with faults := { s.faults with preinit := s.faults.preinit || p, reinit := s.faults.reinit || r,
                                              cgstale := s.faults.cgstale || c } }
      { t with faults := { t.faults with preinit := t.faults.preinit || p, reinit := t.faults.reinit || r,
                                         cgstale := t.faults.cgstale || c } } o := by
  obtain ⟨new, hm, ht⟩ := h
  refine ⟨new, hm, ?_⟩
  rw [ht]

/-- What an operation that drives the bus keeps. -/
theorem Drives.keeps {s t : State} {o : List Out} (h : Drives s t o) :
    t.devAddr = s.devAddr ∧ t.lines = s.lines ∧ t.cols = s.cols ∧ t.par = s.par ∧ t.func = s.func ∧ t.ctrl = s.ctrl ∧
      t.entry = s.entry ∧ t.bl = s.bl ∧ t.metaState = s.metaState ∧ t.aspace = s.aspace ∧ t.rx = s.rx ∧ t.req = s.req ∧
      t.faults.illop = s.faults.illop ∧ t.faults.preinit = s.faults.preinit ∧ t.faults.reinit = s.faults.reinit ∧
      t.faults.cgstale = s.faults.cgstale := by
  obtain ⟨new, -, ht⟩ := h
  rw [ht]
  simp

theorem Drives.pulseOuts_eq {s t : State} {o : List Out} (h : Drives s t o) (v : Byte) :
    pulseOuts t v = pulseOuts s v := by
  obtain ⟨hd, -, -, hp, -, -, -, hb, -⟩ := h.keeps
  simp [pulseOuts, backlightBit, hd, hp, hb]

theorem Drives.sendOuts_eq {s t : State} {o : List Out} (h : Drives s t o) (v : Byte) (m : Mode) :
    sendOuts t v m = sendOuts s v m := by
  obtain ⟨-, -, -, hp, -⟩ := h.keeps
  simp [sendOuts, h.pulseOuts_eq, hp]

/-! ## The primitives -/

theorem delay_drives (ns : Nat) (s : State) : Drives s (delay ns s) [.d ns] :=
  ⟨[.d ns], rfl, by simp [delay, nacked]⟩

theorem expWrite_drives (v : Byte) (s : State) : Drives s (expWrite v s) [.w s.devAddr (v ||| backlightBit s)] := by
  refine ⟨[.w s.devAddr (v ||| backlightBit s) (nextAnswer s)], rfl, ?_⟩
  unfold expWrite
  cases h : nextAnswer s <;> simp [nacked, raise, markFault, busWrite, h]

theorem write4_drives (v : Byte) (s : State) : Drives s (write4 v s) (pulseOuts s v) := by
  have h1 := expWrite_drives (v ||| s.par.enMask) s
  have h2 := h1.trans (delay_drives s.par.tEn _)
  have h3 := h2.trans (expWrite_drives (v &&& ~~~s.par.enMask) _)
  have h4 := h3.trans (delay_drives s.par.tCmd _)
  obtain ⟨hd, -, -, hp, -, -, -, hb, -⟩ := h1.keeps
  simpa [write4, pulseOuts, backlightBit, hd, hp, hb] using h4

theorem send_drives (v : Byte) (m : Mode) (s : State) : Drives s (send v m s) (sendOuts s v m) := by
  have h1 := write4_drives (highNibble v ||| modeBit s.par m) s
  have h2 := h1.trans (write4_drives (lowNibble v ||| modeBit s.par m) _)
  rw [h1.pulseOuts_eq] at h2
  exact h2

theorem sendAll_drives (m : Mode) (vs : List Byte) (s : State) :
    Drives s (sendAll m vs s) (vs.flatMap fun v => sendOuts s v m) := by
  induction vs generalizing s with
  | nil => exact Drives.refl s
  | cons v vs ih =>
    have h1 := send_drives v m s
    have h2 := h1.trans (ih (send v m s))
    simpa [sendAll, h1.sendOuts_eq] using h2

/-! ## The operations that the requests share -/

theorem preinitCheck_mark (s : State) : preinitCheck s = { s with faults := preinitMark s } :=
  preinitCheck_eq s

theorem recover_drives (wait : Nat) (s : State) : Drives s (recover wait s)
    (pulseOuts s (s.par.codes.functionSet ||| s.par.codes.eightBit) ++ [.d wait]) :=
  (write4_drives _ s).trans (delay_drives wait _)

theorem recovery_drives (s : State) : Drives s (recovery s)
    (recoveryOuts s ++ pulseOuts s (s.par.codes.functionSet ||| s.par.codes.fourBit)) := by
  have h1 := recover_drives s.par.tInit1 s
  have h2 := h1.trans (recover_drives s.par.tInit2 _)
  have h3 := h2.trans (recover_drives s.par.tInit3 _)
  have h4 := h3.trans (write4_drives (switchByte s.par.codes) _)
  obtain ⟨-, -, -, hp1, -⟩ := h1.keeps
  obtain ⟨-, -, -, hp2, -⟩ := h2.keeps
  rw [h1.pulseOuts_eq, h2.pulseOuts_eq, h3.pulseOuts_eq, hp1, hp2] at h4
  simp only [recoveryOuts, List.append_assoc] at h4 ⊢
  exact h4

theorem writeFunc_drives (v : Byte) (s : State) :
    Drives (setFunc v s) (writeFunc v s) (sendOuts s (s.par.codes.functionSet ||| v) .command) :=
  send_drives _ _ _

theorem writeCtrl_drives (v : Byte) (s : State) :
    Drives (setCtrl v s) (writeCtrl v s) (sendOuts s (s.par.codes.displayControl ||| v) .command) :=
  send_drives _ _ _

theorem writeEntry_drives (v : Byte) (s : State) :
    Drives (setEntry v s) (writeEntry v s) (sendOuts s (s.par.codes.entryModeSet ||| v) .command) :=
  send_drives _ _ _

theorem clearDisplay_drives (s : State) :
    Drives (setAspace .ddram s) (clearDisplay s)
      (sendOuts s s.par.codes.clearDisplay .command ++ [.d s.par.tClear]) := by
  have h := (send_drives s.par.codes.clearDisplay .command s).trans (delay_drives s.par.tClear _)
  exact h.setAspace .ddram

theorem sendCommand_drives (v : Byte) (s : State) :
    Drives { s with faults := preinitMark s } (sendCommand v s) (sendOuts s v .command) := by
  unfold sendCommand
  rw [preinitCheck_mark]
  exact send_drives _ _ _

theorem updateCtrl_drives (f : Byte → Byte) (s : State) :
    Drives { s with ctrl := f s.ctrl, faults := preinitMark s } (updateCtrl f s)
      (sendOuts s (s.par.codes.displayControl ||| f s.ctrl) .command) := by
  unfold updateCtrl
  rw [preinitCheck_mark]
  exact writeCtrl_drives _ { s with faults := preinitMark s }

theorem updateEntry_drives (f : Byte → Byte) (s : State) :
    Drives { s with entry := f s.entry, faults := preinitMark s } (updateEntry f s)
      (sendOuts s (s.par.codes.entryModeSet ||| f s.entry) .command) := by
  unfold updateEntry
  rw [preinitCheck_mark]
  exact writeEntry_drives _ { s with faults := preinitMark s }

theorem writeChar_drives (c : Byte) (s : State) :
    Drives { s with faults := { preinitMark s with cgstale := s.faults.cgstale || decide (s.aspace = .cgram) } }
      (writeChar c s) (sendOuts s c .data) := by
  unfold writeChar
  rw [cgstaleCheck_eq, preinitCheck_mark]
  exact send_drives _ _ _

theorem writeBacklight_drives (on : Bool) (s : State) :
    Drives { s with bl := on, faults := preinitMark s } (writeBacklight on s)
      [.w s.devAddr (if on then s.par.blMask else 0x00)] := by
  unfold writeBacklight
  rw [preinitCheck_mark]
  have h := expWrite_drives 0x00 (setBl on { s with faults := preinitMark s })
  rw [show (0x00 : Byte) ||| backlightBit (setBl on { s with faults := preinitMark s }) =
    if on then s.par.blMask else 0x00 from by simp [backlightBit]; rfl] at h
  exact h

end Sys2Proof.Machine
end

