-- ==== Sys2Proof/Laws/Port.lean ====
section
/-! SUPPORT. The request port: what a step does in each decoder state, and what the decoder reads. -/

namespace Sys2Proof.Machine

theorem step_exec {s : State} {job : Job} {ret : Ret} (h : s.rx = .exec job ret) :
    step s = withRx (rxOf ret) (execJob job s) := by
  simp [step, sequencerStep, h]

theorem step_idle {s : State} {b : Byte} {rest : List Byte} (h : s.rx = .idle) (hr : s.req = b :: rest) :
    step s = takeOpcode b (setReq rest s) := by
  simp [step, sequencerStep, takeByte, h, hr]

theorem step_collect {s : State} {op : Byte} {buf : List Byte} {k : Nat} {b : Byte} {rest : List Byte}
    (h : s.rx = .collect op buf k) (hr : s.req = b :: rest) :
    step s = takeOperand op buf k b (setReq rest s) := by
  simp [step, sequencerStep, takeByte, h, hr]

theorem step_stream {s : State} {b : Byte} {rest : List Byte} (h : s.rx = .stream) (hr : s.req = b :: rest) :
    step s = takeStream b (setReq rest s) := by
  simp [step, sequencerStep, takeByte, h, hr]

@[simp] theorem withRx_next (rx : Rx) (t : State) : withRx rx (.next t) = .next (setRx rx t) := rfl

@[simp] theorem withRx_fault (rx : Rx) (r : Fault) : withRx rx (.fault r) = .fault r := rfl

@[simp] theorem withRx_refused (rx : Rx) (r : Refusal) : withRx rx (.refused r) = .refused r := rfl

/-! ## `RX` and `REQ` are the request port's alone: no operation of a request reads or writes them -/

theorem preinitCheck_setRx (v : Rx) (s : State) : preinitCheck (setRx v s) = setRx v (preinitCheck s) := by
  rw [preinitCheck_eq, preinitCheck_eq]; rfl

theorem reinitCheck_setRx (v : Rx) (s : State) : reinitCheck (setRx v s) = setRx v (reinitCheck s) := by
  rw [reinitCheck_eq, reinitCheck_eq]; rfl

theorem cgstaleCheck_setRx (v : Rx) (s : State) : cgstaleCheck (setRx v s) = setRx v (cgstaleCheck s) := by
  rw [cgstaleCheck_eq, cgstaleCheck_eq]; rfl

theorem takeAnswer_setRx (v : Rx) (s : State) : takeAnswer (setRx v s) = setRx v (takeAnswer s) := by
  unfold takeAnswer; simp only [setRx_busIn]; split <;> rfl

theorem nextAnswer_setRx (v : Rx) (s : State) : nextAnswer (setRx v s) = nextAnswer s := rfl

theorem delay_setRx (ns : Nat) (v : Rx) (s : State) : delay ns (setRx v s) = setRx v (delay ns s) := rfl

theorem setFunc_setRx (a : Byte) (v : Rx) (s : State) : setFunc a (setRx v s) = setRx v (setFunc a s) := rfl

theorem setCtrl_setRx (a : Byte) (v : Rx) (s : State) : setCtrl a (setRx v s) = setRx v (setCtrl a s) := rfl

theorem setEntry_setRx (a : Byte) (v : Rx) (s : State) : setEntry a (setRx v s) = setRx v (setEntry a s) := rfl

theorem setBl_setRx (a : Bool) (v : Rx) (s : State) : setBl a (setRx v s) = setRx v (setBl a s) := rfl

theorem setMeta_setRx (a : MetaState) (v : Rx) (s : State) : setMeta a (setRx v s) = setRx v (setMeta a s) := rfl

theorem setAspace_setRx (a : Aspace) (v : Rx) (s : State) : setAspace a (setRx v s) = setRx v (setAspace a s) := rfl

theorem expWrite_setRx (b : Byte) (v : Rx) (s : State) : expWrite b (setRx v s) = setRx v (expWrite b s) := by
  have hw (a : DevAddr) (b : Byte) : busWrite a b (setRx v s) = setRx v (busWrite a b s) := by
    simp only [busWrite, takeAnswer_setRx, nextAnswer_setRx]; rfl
  unfold expWrite
  simp only [nextAnswer_setRx, backlightBit, setRx_bl, setRx_par, setRx_devAddr, hw]
  split <;> rfl

theorem write4_setRx (b : Byte) (v : Rx) (s : State) : write4 b (setRx v s) = setRx v (write4 b s) := by
  simp only [write4, expWrite_setRx, delay_setRx, setRx_par]

theorem send_setRx (b : Byte) (m : Mode) (v : Rx) (s : State) : send b m (setRx v s) = setRx v (send b m s) := by
  simp only [send, write4_setRx, setRx_par]

theorem sendAll_setRx (m : Mode) (bs : List Byte) (v : Rx) (s : State) : sendAll m bs (setRx v s) = setRx v (sendAll m bs s) := by
  induction bs generalizing s with
  | nil => rfl
  | cons b bs ih => simp only [sendAll, send_setRx, ih]

theorem writeChar_setRx (b : Byte) (v : Rx) (s : State) : writeChar b (setRx v s) = setRx v (writeChar b s) := by
  simp only [writeChar, preinitCheck_setRx, cgstaleCheck_setRx, send_setRx]

theorem writeChars_setRx (bs : List Byte) (v : Rx) (s : State) : writeChars bs (setRx v s) = setRx v (writeChars bs s) := by
  induction bs generalizing s with
  | nil => rfl
  | cons b bs ih => simp only [writeChars, writeChar_setRx, ih]

theorem preinitCheck_setReq (v : List Byte) (s : State) : preinitCheck (setReq v s) = setReq v (preinitCheck s) := by
  rw [preinitCheck_eq, preinitCheck_eq]; rfl

theorem reinitCheck_setReq (v : List Byte) (s : State) : reinitCheck (setReq v s) = setReq v (reinitCheck s) := by
  rw [reinitCheck_eq, reinitCheck_eq]; rfl

theorem cgstaleCheck_setReq (v : List Byte) (s : State) : cgstaleCheck (setReq v s) = setReq v (cgstaleCheck s) := by
  rw [cgstaleCheck_eq, cgstaleCheck_eq]; rfl

theorem takeAnswer_setReq (v : List Byte) (s : State) : takeAnswer (setReq v s) = setReq v (takeAnswer s) := by
  unfold takeAnswer; simp only [setReq_busIn]; split <;> rfl

theorem nextAnswer_setReq (v : List Byte) (s : State) : nextAnswer (setReq v s) = nextAnswer s := rfl

theorem delay_setReq (ns : Nat) (v : List Byte) (s : State) : delay ns (setReq v s) = setReq v (delay ns s) := rfl

theorem setFunc_setReq (a : Byte) (v : List Byte) (s : State) : setFunc a (setReq v s) = setReq v (setFunc a s) := rfl

theorem setCtrl_setReq (a : Byte) (v : List Byte) (s : State) : setCtrl a (setReq v s) = setReq v (setCtrl a s) := rfl

theorem setEntry_setReq (a : Byte) (v : List Byte) (s : State) : setEntry a (setReq v s) = setReq v (setEntry a s) := rfl

theorem setBl_setReq (a : Bool) (v : List Byte) (s : State) : setBl a (setReq v s) = setReq v (setBl a s) := rfl

theorem setMeta_setReq (a : MetaState) (v : List Byte) (s : State) : setMeta a (setReq v s) = setReq v (setMeta a s) := rfl

theorem setAspace_setReq (a : Aspace) (v : List Byte) (s : State) : setAspace a (setReq v s) = setReq v (setAspace a s) := rfl

theorem expWrite_setReq (b : Byte) (v : List Byte) (s : State) : expWrite b (setReq v s) = setReq v (expWrite b s) := by
  have hw (a : DevAddr) (b : Byte) : busWrite a b (setReq v s) = setReq v (busWrite a b s) := by
    simp only [busWrite, takeAnswer_setReq, nextAnswer_setReq]; rfl
  unfold expWrite
  simp only [nextAnswer_setReq, backlightBit, setReq_bl, setReq_par, setReq_devAddr, hw]
  split <;> rfl

theorem write4_setReq (b : Byte) (v : List Byte) (s : State) : write4 b (setReq v s) = setReq v (write4 b s) := by
  simp only [write4, expWrite_setReq, delay_setReq, setReq_par]

theorem send_setReq (b : Byte) (m : Mode) (v : List Byte) (s : State) : send b m (setReq v s) = setReq v (send b m s) := by
  simp only [send, write4_setReq, setReq_par]

theorem sendAll_setReq (m : Mode) (bs : List Byte) (v : List Byte) (s : State) : sendAll m bs (setReq v s) = setReq v (sendAll m bs s) := by
  induction bs generalizing s with
  | nil => rfl
  | cons b bs ih => simp only [sendAll, send_setReq, ih]

theorem writeChar_setReq (b : Byte) (v : List Byte) (s : State) : writeChar b (setReq v s) = setReq v (writeChar b s) := by
  simp only [writeChar, preinitCheck_setReq, cgstaleCheck_setReq, send_setReq]

theorem writeChars_setReq (bs : List Byte) (v : List Byte) (s : State) : writeChars bs (setReq v s) = setReq v (writeChars bs s) := by
  induction bs generalizing s with
  | nil => rfl
  | cons b bs ih => simp only [writeChars, writeChar_setReq, ih]

theorem recovery_setRx (v : Rx) (s : State) : recovery (setRx v s) = setRx v (recovery s) := by
  simp only [recovery, recover, write4_setRx, delay_setRx, setRx_par]

theorem writeFunc_setRx (b : Byte) (v : Rx) (s : State) : writeFunc b (setRx v s) = setRx v (writeFunc b s) := by
  simp only [writeFunc, setFunc_setRx, send_setRx, setRx_par]

theorem writeCtrl_setRx (b : Byte) (v : Rx) (s : State) : writeCtrl b (setRx v s) = setRx v (writeCtrl b s) := by
  simp only [writeCtrl, setCtrl_setRx, send_setRx, setRx_par]

theorem writeEntry_setRx (b : Byte) (v : Rx) (s : State) : writeEntry b (setRx v s) = setRx v (writeEntry b s) := by
  simp only [writeEntry, setEntry_setRx, send_setRx, setRx_par]

theorem clearDisplay_setRx (v : Rx) (s : State) : clearDisplay (setRx v s) = setRx v (clearDisplay s) := by
  simp only [clearDisplay, send_setRx, delay_setRx, setAspace_setRx, setRx_par]

theorem sendCommand_setRx (b : Byte) (v : Rx) (s : State) : sendCommand b (setRx v s) = setRx v (sendCommand b s) := by
  simp only [sendCommand, preinitCheck_setRx, send_setRx]

theorem updateCtrl_setRx (f : Byte → Byte) (v : Rx) (s : State) : updateCtrl f (setRx v s) = setRx v (updateCtrl f s) := by
  simp only [updateCtrl, preinitCheck_setRx, writeCtrl_setRx, setRx_ctrl]

theorem updateEntry_setRx (f : Byte → Byte) (v : Rx) (s : State) :
    updateEntry f (setRx v s) = setRx v (updateEntry f s) := by
  simp only [updateEntry, preinitCheck_setRx, writeEntry_setRx, setRx_entry]

theorem writeBacklight_setRx (on : Bool) (v : Rx) (s : State) :
    writeBacklight on (setRx v s) = setRx v (writeBacklight on s) := by
  simp only [writeBacklight, preinitCheck_setRx, setBl_setRx, expWrite_setRx]

/-- A request does the same whatever `RX` is, and leaves it. -/
theorem exec_setRx (i : Instr) (v : Rx) (s : State) : exec i (setRx v s) = withRx v (exec i s) := by
  cases i <;>
    simp only [exec, execInit, execClear, execHome, execSetpos, execDisplay, execNodisplay, execCursor, execNocursor,
      execBlink, execNoblink, execScrollLeft, execScrollRight, execLeftToRight, execRightToLeft, execAutoscroll,
      execNoautoscroll, execCreatechar, execBacklight, execNobacklight, execWrite, execPrintstr, execDrawHgraph,
      execDrawVgraph, withRx_next, setRx_par, setRx_lines, reinitCheck_setRx, recovery_setRx, writeFunc_setRx,
      writeCtrl_setRx, writeEntry_setRx, clearDisplay_setRx, sendCommand_setRx, updateCtrl_setRx, updateEntry_setRx,
      writeBacklight_setRx, preinitCheck_setRx, send_setRx, sendAll_setRx, writeChar_setRx, writeChars_setRx,
      delay_setRx, setAspace_setRx, setMeta_setRx]

/-! ## Runs -/

theorem run_zero (s : State) : Sys2Proof.core.run 0 s = .next s := rfl

theorem coreRun_succ (M : Host.Core) {s t : M.State} (h : M.step s = .next t) (n : Nat) : M.run (n + 1) s = M.run n t := by
  rw [Host.Core.run, h]

theorem coreRun_one (M : Host.Core) (s : M.State) : M.run 1 s = M.step s := by
  rw [Host.Core.run]
  cases M.step s <;> rfl

theorem run_succ {s t : State} (h : step s = .next t) (n : Nat) :
    Sys2Proof.core.run (n + 1) s = Sys2Proof.core.run n t :=
  coreRun_succ Sys2Proof.core h n

theorem run_one (s : State) : Sys2Proof.core.run 1 s = step s :=
  coreRun_one Sys2Proof.core s

/-! ## PRINTSTR's characters -/

theorem splitText_append {text : List Byte} (h : textOk text = true) (rest : List Byte) :
    splitText (text ++ 0x00 :: rest) = some (text, rest) := by
  induction text with
  | nil => simp [splitText]
  | cons c cs ih =>
    simp only [textOk, List.all_cons, Bool.and_eq_true, bne_iff_ne, ne_eq] at h
    have hcs := ih (by simpa [textOk] using h.2)
    rw [List.cons_append, splitText, if_neg h.1, hcs]

end Sys2Proof.Machine
end

