-- ==== Sys2Proof/Tests/Slice0.lean ====
section
/-! SUPPORT. Tests of the model against spec/95_test_vectors.md and the encodings of spec/30_encoding.md: every expected
value is written from those files. A test names the vector it takes. After them, one witness for each obligation that
has hypotheses. -/

namespace Sys2Proof.Tests

open Sys2Proof Sys2Proof.Machine

/-! ## Helpers -/

/-- The bridge right after reset, with address 0x27, the given lines and a bus that acknowledges 80 writes. -/
def fresh (lines : Byte) : State :=
  { State.resetWith ⟨0x27, lines, 16⟩ Config.params with busIn := List.replicate 80 .ack }

/-- The state of the vectors: right after INIT, with two lines (95_test_vectors.md section 0). -/
def running : State :=
  { fresh 2 with metaState := .oper, func := 0x08, ctrl := 0x04, entry := 0x02, aspace := .ddram }

/-- `running` with bytes offered on the port. -/
def offered (bytes : List Byte) : State := { running with req := bytes }

/-- The data bytes of the writes of a trace. -/
def dataBytes : List Event → List Byte
  | [] => []
  | .w _ b _ :: rest => b :: dataBytes rest
  | .d _ :: rest => dataBytes rest

/-- What a test sees of an outcome: the bytes written, CTRL, ENTRY and STATUS. -/
def seen : Host.Outcome State Fault Refusal → Option (List Byte × Byte × Byte × Byte)
  | .next t => some (dataBytes t.tr, t.ctrl, t.entry, t.status)
  | .fault _ => none
  | .refused _ => none

/-- The next state of an outcome, and the given state where there is none. -/
def stateOr (s : State) : Host.Outcome State Fault Refusal → State
  | .next t => t
  | .fault _ => s
  | .refused _ => s

/-- The bytes that INIT writes with two lines and the backlight off (V-INIT-2). -/
def initBytes : List Byte :=
  [0x34, 0x30, 0x34, 0x30, 0x34, 0x30, 0x24, 0x20] ++ [0x24, 0x20, 0x84, 0x80] ++ [0x04, 0x00, 0xC4, 0xC0] ++
    [0x04, 0x00, 0x64, 0x60] ++ [0x04, 0x00, 0x14, 0x10]

/-! ## Well-formedness -/

/-- A 0x00 inside a PRINTSTR text is the one ill-formed term (R92). -/
theorem test_wf_refuses_zero_character :
    Instr.wf (.printstr [0x41, 0x00]) = false ∧ Instr.wf (.printstr [0x00]) = false := by decide

theorem test_wf_accepts_texts : Instr.wf (.printstr [0x41, 0xFF]) = true ∧ Instr.wf (.printstr []) = true := by decide

/-! ## Decoding: words written out from R91 and R92 -/

theorem test_decode_init : decode [0x01] = .ok (.init, []) := by decide
theorem test_decode_clear : decode [0x02] = .ok (.clear, []) := by decide
theorem test_decode_home : decode [0x03] = .ok (.home, []) := by decide
theorem test_decode_setpos : decode [0x04, 0x01, 0x05, 0x02] = .ok (.setpos 0x01 0x05, [0x02]) := by decide
theorem test_decode_display : decode [0x05] = .ok (.display, []) := by decide
theorem test_decode_nodisplay : decode [0x06] = .ok (.nodisplay, []) := by decide
theorem test_decode_cursor : decode [0x07] = .ok (.cursor, []) := by decide
theorem test_decode_nocursor : decode [0x08] = .ok (.nocursor, []) := by decide
theorem test_decode_blink : decode [0x09] = .ok (.blink, []) := by decide
theorem test_decode_noblink : decode [0x0A] = .ok (.noblink, []) := by decide
theorem test_decode_scroll_left : decode [0x0B] = .ok (.scrollLeft, []) := by decide
theorem test_decode_scroll_right : decode [0x0C] = .ok (.scrollRight, []) := by decide
theorem test_decode_left_to_right : decode [0x0D] = .ok (.leftToRight, []) := by decide
theorem test_decode_right_to_left : decode [0x0E] = .ok (.rightToLeft, []) := by decide
theorem test_decode_autoscroll : decode [0x0F] = .ok (.autoscroll, []) := by decide
theorem test_decode_noautoscroll : decode [0x10] = .ok (.noautoscroll, []) := by decide
theorem test_decode_createchar : decode [0x11, 0x02, 0x1F, 0x11, 0x12, 0x13, 0x14, 0x15, 0x16, 0x17] =
    .ok (.createchar 0x02 ⟨0x1F, 0x11, 0x12, 0x13, 0x14, 0x15, 0x16, 0x17⟩, []) := by decide
theorem test_decode_backlight : decode [0x12] = .ok (.backlight, []) := by decide
theorem test_decode_nobacklight : decode [0x13] = .ok (.nobacklight, []) := by decide
/-- V-DEC-7: 0x15 is an operand here. -/
theorem test_decode_write : decode [0x14, 0x15] = .ok (.write 0x15, []) := by decide
/-- V-STR-1, with a byte after the terminator. -/
theorem test_decode_printstr : decode [0x15, 0x48, 0x69, 0x00, 0x12] = .ok (.printstr [0x48, 0x69], [0x12]) := by decide
theorem test_decode_draw_hgraph : decode [0x16, 1, 2, 3, 4] = .ok (.drawHgraph 1 2 3 4, []) := by decide
theorem test_decode_draw_vgraph : decode [0x17, 5, 6, 7, 8] = .ok (.drawVgraph 5 6 7 8, []) := by decide

/-- R96 at the ends of the reserved ranges; V-DEC-5 is an unfinished request. -/
theorem test_decode_rejects : decode [0x00] = .error (.reserved 0x00) ∧ decode [0x18] = .error (.reserved 0x18) ∧
    decode [0xFF] = .error (.reserved 0xFF) ∧ decode [0x04, 0x01] = .error (.truncated 0x04) ∧
    decode [] = .error .empty := by decide

/-- A table word: bit 0 is bit 0 of the opcode byte, the second byte is bits 15..8. -/
theorem test_decode_table_word : decodeTableWord 24 0x050104 = some (.setpos 0x01 0x05) ∧
    decodeTableWord 8 0x11 = some (.createchar 0 ⟨0, 0, 0, 0, 0, 0, 0, 0⟩) ∧ decodeTableWord 8 0x15 = some (.printstr []) ∧
    decodeTableWord 8 0x00 = none := by decide

/-! ## The sequencer's primitives -/

/-- V-SEQ-3. -/
theorem test_exp_write_backlight : dataBytes (expWrite 0x45 { running with bl := true }).tr = [0x4D] := by decide

/-- V-SEQ-5, with its delays. -/
theorem test_write4_backlight : (write4 0x31 { running with bl := true }).tr =
    [.w 0x27 0x3D .ack, .d 1000, .w 0x27 0x39 .ack, .d 50000] := by decide

/-- V-SEQ-9. -/
theorem test_send_data : dataBytes (send 0xFF .data { running with bl := true }).tr = [0xFD, 0xF9, 0xFD, 0xF9] := by decide

/-- V-SEQ-10: the rest is sent after a `NACK`. -/
theorem test_send_nack : (send 0x41 .data { running with busIn := [.nack, .ack, .ack, .ack] }).faults.buserr = true ∧
    dataBytes (send 0x41 .data { running with busIn := [.nack, .ack, .ack, .ack] }).tr = [0x45, 0x41, 0x15, 0x11] := by
  decide

/-! ## The requests: at most two vectors each -/

/-- V-INIT-2. -/
theorem test_init_two_lines : seen (exec .init (fresh 2)) = some (initBytes, 0x04, 0x02, 0x02) := by decide

/-- V-INIT-1: FUNCTIONSET is 0x20; the fifth and sixth nibbles are those of 0x20. -/
theorem test_init_one_line : (seen (exec .init (fresh 1))).map (fun r => (r.1.drop 8).take 4) =
    some [0x24, 0x20, 0x04, 0x00] := by decide

/-- V-CMD-1. -/
theorem test_clear : seen (exec .clear running) = some ([0x04, 0x00, 0x14, 0x10], 0x04, 0x02, 0x02) := by decide

/-- V-CMD-16: CLEAR right after reset. -/
theorem test_clear_before_init : seen (exec .clear (fresh 2)) = some ([0x04, 0x00, 0x14, 0x10], 0, 0, 0x10) := by decide

/-- V-CMD-2, and the wait after it. -/
theorem test_home : seen (exec .home running) = some ([0x04, 0x00, 0x24, 0x20], 0x04, 0x02, 0x02) ∧
    (stateOr running (exec .home running)).tr.getLast? = some (.d 2000000) := by decide

/-- V-POS-2. -/
theorem test_setpos : seen (exec (.setpos 1 5) running) = some ([0xC4, 0xC0, 0x54, 0x50], 0x04, 0x02, 0x02) := by decide

/-- V-POS-12: wraps. -/
theorem test_setpos_wraps : seen (exec (.setpos 255 255) running) = some ([0xD4, 0xD0, 0x34, 0x30], 0x04, 0x02, 0x02) := by
  decide

/-- V-CMD-15. -/
theorem test_display : seen (exec .display { running with bl := true }) =
    some ([0x0C, 0x08, 0xCC, 0xC8], 0x04, 0x02, 0x02) := by decide

/-- V-CMD-4. -/
theorem test_nodisplay : seen (exec .nodisplay running) = some ([0x04, 0x00, 0x84, 0x80], 0x00, 0x02, 0x02) := by decide

/-- V-CMD-5. -/
theorem test_cursor : seen (exec .cursor running) = some ([0x04, 0x00, 0xE4, 0xE0], 0x06, 0x02, 0x02) := by decide

/-- V-CMD-6. -/
theorem test_nocursor : seen (exec .nocursor running) = some ([0x04, 0x00, 0xC4, 0xC0], 0x04, 0x02, 0x02) := by decide

/-- V-CMD-7. -/
theorem test_blink : seen (exec .blink running) = some ([0x04, 0x00, 0xD4, 0xD0], 0x05, 0x02, 0x02) := by decide

/-- R170's example: after BLINK. -/
theorem test_noblink : seen (exec .noblink { running with ctrl := 0x05 }) =
    some ([0x04, 0x00, 0xC4, 0xC0], 0x04, 0x02, 0x02) := by decide

/-- V-CMD-9. -/
theorem test_scroll_left : seen (exec .scrollLeft running) = some ([0x14, 0x10, 0x84, 0x80], 0x04, 0x02, 0x02) := by decide

/-- V-CMD-10. -/
theorem test_scroll_right : seen (exec .scrollRight running) = some ([0x14, 0x10, 0xC4, 0xC0], 0x04, 0x02, 0x02) := by
  decide

/-- V-CMD-11. -/
theorem test_left_to_right : seen (exec .leftToRight running) = some ([0x04, 0x00, 0x64, 0x60], 0x04, 0x02, 0x02) := by
  decide

/-- V-CMD-12. -/
theorem test_right_to_left : seen (exec .rightToLeft running) = some ([0x04, 0x00, 0x44, 0x40], 0x04, 0x00, 0x02) := by
  decide

/-- V-CMD-13. -/
theorem test_autoscroll : seen (exec .autoscroll running) = some ([0x04, 0x00, 0x74, 0x70], 0x04, 0x03, 0x02) := by decide

/-- R176's example: after AUTOSCROLL. -/
theorem test_noautoscroll : seen (exec .noautoscroll { running with entry := 0x03 }) =
    some ([0x04, 0x00, 0x64, 0x60], 0x04, 0x02, 0x02) := by decide

/-- V-GLY-5: the slot is masked, the rows are not. -/
theorem test_createchar : seen (exec (.createchar 255 ⟨0xE0, 0, 0, 0, 0, 0, 0, 0xFF⟩) running) =
    some ([0x74, 0x70, 0x84, 0x80] ++ [0xE5, 0xE1, 0x05, 0x01] ++ (List.replicate 12 [0x05, 0x01]).flatten ++
      [0xF5, 0xF1, 0xF5, 0xF1], 0x04, 0x02, 0x02) := by decide +kernel

/-- V-GLY-1: CREATECHAR leaves CGRAM; V-GLY-4: slot 8 acts as 0. -/
theorem test_createchar_aspace : (stateOr running (exec (.createchar 8 ⟨0, 0, 0, 0, 0, 0, 0, 0⟩) running)).aspace = .cgram ∧
    createcharByte Config.codes 8 = 0x40 ∧ createcharByte Config.codes 2 = 0x50 := by decide

/-- V-BL-5: BL is written although the write is answered `NACK`. -/
theorem test_backlight_nack : seen (exec .backlight { running with busIn := [.nack] }) =
    some ([0x08], 0x04, 0x02, 0x06) ∧ (stateOr running (exec .backlight { running with busIn := [.nack] })).bl = true := by
  decide

/-- V-BL-2. -/
theorem test_nobacklight : seen (exec .nobacklight { running with bl := true }) = some ([0x00], 0x04, 0x02, 0x02) := by
  decide

/-- V-DAT-1. -/
theorem test_write : seen (exec (.write 0x41) running) = some ([0x45, 0x41, 0x15, 0x11], 0x04, 0x02, 0x02) := by decide

/-- V-DAT-6: right after CREATECHAR. -/
theorem test_write_cgstale : seen (exec (.write 0x41) { running with aspace := .cgram }) =
    some ([0x45, 0x41, 0x15, 0x11], 0x04, 0x02, 0x42) := by decide

/-- V-STR-1. -/
theorem test_printstr : seen (exec (.printstr [0x48, 0x69]) running) =
    some ([0x45, 0x41, 0x85, 0x81, 0x65, 0x61, 0x95, 0x91], 0x04, 0x02, 0x02) := by decide

/-- R245 and R202: the empty string before INIT raises PREINIT and sends nothing. -/
theorem test_printstr_empty : seen (exec (.printstr []) (fresh 2)) = some ([], 0, 0, 0x10) := by decide

/-- V-CMP-3: no PREINIT. -/
theorem test_draw_hgraph : seen (exec (.drawHgraph 1 2 3 4) (fresh 2)) = some ([], 0, 0, 0x00) := by decide

/-- V-CMP-2. -/
theorem test_draw_vgraph : exec (.drawVgraph 0 0 0 0) running = .next running := rfl

/-! ## The port -/

/-- V-DEC-4: a reserved byte right after reset. -/
theorem test_reserved_byte : seen (step { fresh 2 with req := [0x20] }) = some ([], 0, 0, 0x08) := by decide

/-- V-DEC-5: SETPOS with its column missing. -/
theorem test_collect : (stateOr running (step (stateOr running (step (offered [0x04, 0x01]))))).rx =
    .collect 0x04 [0x01] 1 := by decide

/-- A word placed by `withFetchWord` is what the next step runs: CURSOR, and PRINTSTR's opcode byte. -/
theorem test_with_fetch_word : seen (step (running.withFetchWord 8 0x07)) =
      some ([0x04, 0x00, 0xE4, 0xE0], 0x06, 0x02, 0x02) ∧
    (stateOr running (step (running.withFetchWord 8 0x15))).rx = .stream := by decide

/-! ## Witnesses -/

theorem test_witness_encode : Instr.wf (.printstr [0x01, 0xFF]) = true ∧ Instr.wf .init = true := by decide

theorem test_witness_reserved_bounds : isReserved 0x00 = true ∧ isReserved 0x01 = false ∧ isReserved 0x17 = false ∧
    isReserved 0x18 = true ∧ isReserved 0xFF = true := by decide

theorem test_witness_request_length : (∀ text, Instr.init ≠ .printstr text) ∧
    (∀ text, Instr.createchar 0 ⟨0, 0, 0, 0, 0, 0, 0, 0⟩ ≠ .printstr text) ∧ Instr.wf (.printstr []) = true := by
  refine ⟨?_, ?_, ?_⟩ <;> first | (intro text h; cases h) | decide

theorem test_witness_step_runs : ({ running with rx := .exec (.request .clear) .idle } : State).rx =
      .exec (.request .clear) .idle ∧
    (offered [0x15, 0x00]).rx = .idle ∧ (offered [0x15, 0x00]).req = 0x15 :: [0x00] := by decide

theorem test_witness_fixed_run : (∀ text, Instr.write 0x00 ≠ .printstr text) ∧ (offered [0x14, 0x00, 0x12]).rx = .idle ∧
    (offered [0x14, 0x00, 0x12]).req = encode (.write 0x00) ++ [0x12] := by
  refine ⟨?_, ?_, ?_⟩ <;> first | (intro text h; cases h) | decide

theorem test_witness_printstr_run : textOk [0x48] = true ∧ (offered [0x15, 0x48, 0x00]).rx = .idle ∧
    (offered [0x15, 0x48, 0x00]).req = encode (.printstr [0x48]) ++ [] := by decide

theorem test_witness_printstr_empty_run : textOk [] = true ∧ (offered [0x15, 0x00]).rx = .idle ∧
    (offered [0x15, 0x00]).req = encode (.printstr []) ++ [] := by decide

theorem test_witness_printstr_char : ({ running with rx := .exec (.printstrChar 0x41) .stream } : State).rx =
    .exec (.printstrChar 0x41) .stream := by decide

theorem test_witness_stream : ({ offered [0x00] with rx := .stream } : State).req = 0x00 :: [] ∧
    ({ offered [0x01] with rx := .stream } : State).req = 0x01 :: [] ∧ (0x01 : Byte) ≠ 0 ∧
    ({ offered [0x01] with rx := .stream } : State).rx = .stream := by decide

/-- The state in which CLEAR executes. -/
def clearing : State := { running with rx := .exec (.request .clear) .idle, req := [0x05] }

theorem test_witness_busy_step : clearing.status.getLsbD 0 = true ∧ (∃ t, step clearing = .next t) :=
  ⟨by decide, _, rfl⟩

theorem test_witness_ready_step : (offered [0x05]).status.getLsbD 0 = false ∧ (∃ t, step (offered [0x05]) = .next t) :=
  ⟨by decide, _, rfl⟩

theorem test_witness_waiting : running.status.getLsbD 0 = false ∧ running.req = [] := by decide

theorem test_witness_reserved_step : (offered [0x18]).rx = .idle ∧ (offered [0x18]).req = 0x18 :: [] ∧
    ((0x18 : Byte).toNat = 0 ∨ 0x18 ≤ (0x18 : Byte).toNat) ∧ ((0x00 : Byte).toNat = 0 ∨ 0x18 ≤ (0x00 : Byte).toNat) ∧
    ((0xFF : Byte).toNat = 0 ∨ 0x18 ≤ (0xFF : Byte).toNat) := by decide

/-- A proper opcode byte at each end of the range. -/
theorem test_witness_proper_opcodes : (offered [0x01]).rx = .idle ∧ (1 ≤ (0x01 : Byte).toNat ∧ (0x01 : Byte).toNat ≤ 0x17) ∧
    (∃ t, step (offered [0x01]) = .next t) ∧ (1 ≤ (0x17 : Byte).toNat ∧ (0x17 : Byte).toNat ≤ 0x17) ∧
    (∃ t, step (offered [0x17]) = .next t) :=
  ⟨by decide, by decide, ⟨_, rfl⟩, by decide, ⟨_, rfl⟩⟩

theorem test_witness_operand_step : ({ offered [0xFF] with rx := .collect 0x14 [] 1 } : State).rx ≠ .idle ∧
    (∃ t, step { offered [0xFF] with rx := .collect 0x14 [] 1 } = .next t) :=
  ⟨by decide, _, rfl⟩

theorem test_witness_reset_cut : clearing.rx = .exec (.request .clear) .idle ∧ (∃ t, step clearing = .next t) ∧
    (∃ u, exec .init (clearing.hostReset ⟨0x27, 2, 16⟩ 3) = .next u) :=
  ⟨by decide, ⟨_, rfl⟩, ⟨_, rfl⟩⟩

/-- R282: a RESET after three of the nine events of CLEAR keeps three, two of them writes, whose answers are used up. -/
theorem test_reset_cut : clearing.traceAtReset 3 = [.w 0x27 0x04 .ack, .d 1000, .w 0x27 0x00 .ack] ∧
    (clearing.hostReset ⟨0x27, 2, 16⟩ 3).busIn.length = 78 ∧ (clearing.traceAtReset 20).length = 9 := by decide

/-- R282, R67: a RESET that cuts CLEAR after its two first writes uses up two answers; the next write gets the third. -/
theorem test_reset_answers : nextAnswer (({ clearing with busIn := [.ack, .ack, .nack, .ack] } : State).hostReset ⟨0x27, 2, 16⟩ 4) =
    .nack := by decide

theorem test_witness_wired : running.par.wired ∧ running.par.legal ∧ running.par.coded := by decide

theorem test_witness_reserved_bits : running.ctrl &&& 0xF8 = 0 ∧ running.entry &&& 0xFC = 0 ∧
    ({ running with ctrl := 0x07, entry := 0x03 } : State).ctrl &&& 0xF8 = 0 ∧
    ({ running with ctrl := 0x07, entry := 0x03 } : State).entry &&& 0xFC = 0 := by decide

/-- R70 at both ends of each clause: the ignored bits clear and set. -/
theorem test_witness_line_offsets : (0x00 : Byte).toNat % 4 = 0 ∧ (0xFC : Byte).toNat % 4 = 0 ∧
    (0x01 : Byte).toNat % 4 = 1 ∧ (0xFD : Byte).toNat % 4 = 1 ∧ (0x02 : Byte).toNat % 4 = 2 ∧ (0xFE : Byte).toNat % 4 = 2 ∧
    (0x03 : Byte).toNat % 4 = 3 ∧ (0xFF : Byte).toNat % 4 = 3 := by decide

/-- Every sticky bit set, so that bits 2 and 6, the ends of the range, are 1. -/
theorem test_witness_sticky : (∃ t, step { clearing with faults := ⟨true, true, true, true, true⟩ } = .next t) ∧
    ({ clearing with faults := ⟨true, true, true, true, true⟩ } : State).status.getLsbD 2 = true ∧
    ({ clearing with faults := ⟨true, true, true, true, true⟩ } : State).status.getLsbD 6 = true :=
  ⟨⟨_, rfl⟩, by decide, by decide⟩

theorem test_witness_oper_step : (∃ t, step clearing = .next t) ∧ clearing.metaState = .oper ∧
    (∃ t, exec .init running = .next t) ∧ (∃ t, exec .clear (fresh 2) = .next t) :=
  ⟨⟨_, rfl⟩, by decide, ⟨_, rfl⟩, ⟨_, rfl⟩⟩

/-- A step that changes META. -/
theorem test_witness_meta_step : (stateOr running (step { fresh 2 with rx := .exec (.request .init) .idle })).metaState ≠
    (fresh 2).metaState := by decide

theorem test_witness_geometry : Instr.clear ≠ .init := by decide

theorem test_witness_expander_bytes : clearing.par.wired ∧ clearing.par.coded ∧ (∃ t, step clearing = .next t) :=
  ⟨by decide, by decide, _, rfl⟩

/-- Every write of the `Send` acknowledged. -/
theorem test_witness_latches : running.par.wired ∧
    (∀ e ∈ (send 0x41 .data running).tr, nacked e = false) := by decide

theorem test_witness_backlight_latch : running.par.wired ∧ (0xFB : Byte).getLsbD 2 = false ∧
    (0x04 : Byte).getLsbD 2 = true ∧ nextAnswer running = .ack := by decide

theorem test_witness_answers : nextAnswer running = .ack ∧ nextAnswer { running with busIn := [.nack] } = .nack := by decide

theorem test_witness_parameters : Config.params.wired ∧ Config.params.legal ∧ Config.params.coded := by decide

/-- The state right after reset meets the invariant, and a step leaves it. -/
theorem fresh_inv : Inv (fresh 2) where
  wired := by decide
  legal := by decide
  coded := rfl
  rxOk := trivial
  reserved := by decide
  protocol := by decide
  mirror := fun h => by cases h

theorem test_witness_invariant_step : Inv (fresh 2) ∧ (∃ t, step (fresh 2) = .next t) := ⟨fresh_inv, _, rfl⟩

/-- `fresh` with INIT in execution. -/
def starting : State := { fresh 2 with rx := .exec (.request .init) .idle }

/-- The same with INIT in execution, whose FUNCTIONSET byte is 0x28 for two lines (R151). -/
theorem test_witness_init_step :
    Inv starting ∧ (∃ t, step starting = .next t) ∧ isFunctionSet (.command, 0x28) = true :=
  ⟨⟨by decide, by decide, rfl, by simp only [RxOk, starting]; decide, by decide, by decide, fun h => by cases h⟩,
    ⟨_, rfl⟩, rfl⟩

/-- A proper decoder state of each kind. -/
theorem test_witness_rx_ok : RxOk running ∧ RxOk { running with rx := .stream } ∧
    RxOk { running with rx := .collect 0x11 [0, 0, 0, 0, 0, 0, 0, 0] 1 } ∧
    RxOk { running with rx := .exec (.printstrChar 0x41) .stream } ∧ RxOk clearing :=
  ⟨trivial, trivial, by simp only [RxOk]; decide, by simp only [RxOk]; decide, by simp only [RxOk, clearing]; decide⟩

theorem test_witness_protocol : clearing.par.wired ∧ clearing.par.legal ∧ clearing.par.coded ∧
    Monitor.accepts clearing.tr ∧ (∃ t, step clearing = .next t) :=
  ⟨by decide, by decide, by decide, by decide, _, rfl⟩

/-! ### Reachable states -/

theorem reachable_answers (n : Nat) {s : State} (h : Reachable s) :
    Reachable { s with busIn := s.busIn ++ List.replicate n .ack } := by
  induction n generalizing s with
  | zero => simpa using h
  | succ n ih => simpa [State.lineUpAnswer, List.replicate_succ] using ih (h.answer .ack)

theorem reachable_offers (bytes : List Byte) {s : State} (h : Reachable s) :
    Reachable { s with req := s.req ++ bytes } := by
  induction bytes generalizing s with
  | nil => simpa using h
  | cons b bs ih => simpa [State.submit] using ih (h.submit b)

theorem reachable_run (n : Nat) {s t : State} (h : Reachable s) (hr : Sys2Proof.core.run n s = .next t) : Reachable t := by
  induction n generalizing s with
  | zero => rw [run_zero] at hr; injection hr with hr; exact hr ▸ h
  | succ n ih =>
    cases hs : step s with
    | next u => exact ih (h.step hs) (by rw [← hr, run_succ hs])
    | fault r => simp [Host.Core.run, Sys2Proof.core, hs] at hr
    | refused r => simp [Host.Core.run, Sys2Proof.core, hs] at hr

theorem fresh_reachable (bytes : List Byte) : Reachable { fresh 2 with req := bytes } :=
  reachable_offers bytes (reachable_answers 80 (Reachable.reset ⟨0x27, 2, 16⟩ Config.params (by decide) (by decide) rfl))

/-- After INIT: `IDLE`, operational, no bus error. -/
theorem test_witness_after_init : ∃ s, Reachable s ∧ s.rx = .idle ∧ s.metaState = .oper ∧ s.faults.buserr = false :=
  ⟨_, reachable_run 2 (fresh_reachable [0x01]) rfl, by decide, by decide, by decide⟩

/-- Inside a PRINTSTR after INIT. -/
theorem test_witness_in_stream : ∃ s, Reachable s ∧ s.rx = .stream ∧ s.metaState = .oper ∧ s.faults.buserr = false :=
  ⟨_, reachable_run 3 (fresh_reachable [0x01, 0x15]) rfl, by decide, by decide, by decide⟩

/-- CREATECHAR with one operand to come: eight in the buffer. -/
theorem test_witness_full_buffer : ∃ s, Reachable s ∧ s.rx = .collect 0x11 [2, 1, 2, 3, 4, 5, 6, 7] 1 :=
  ⟨_, reachable_run 9 (fresh_reachable [0x11, 2, 1, 2, 3, 4, 5, 6, 7]) rfl, by decide⟩

theorem test_witness_toggles : running.par.coded ∧ ∀ i ∈ [Instr.cursor, Instr.rightToLeft, Instr.autoscroll], (flagEffect i).isSome := by decide

/-- Requests that change CTRL and ENTRY, for the second half of R38. -/
theorem test_witness_flag_changes : (stateOr running (exec .cursor running)).ctrl ≠ running.ctrl ∧
    (stateOr running (exec .rightToLeft running)).entry ≠ running.entry := by decide

theorem test_witness_other_requests : Instr.backlight ≠ .init ∧ flagEffect .backlight = none := by decide

end Sys2Proof.Tests
end

/-! What every step tells the controller: the bus monitor run over outputs, each request's bytes and that it keeps the
protocol (`exec_tells`, `step_tells`), and with them the statements of spec/00_scope.md. -/

namespace Sys2Proof.Machine

/-! ## The monitor reads what the bridge puts on the bus, not the bus's answers -/

/-- An output as the event that the bus acknowledges. -/
def Out.acked : Out → Event
  | .w a b => .w a b .ack
  | .d ns => .d ns

/-- The monitor after some outputs, whatever the bus answers them (`foldl_next_eq_after`). -/
def Monitor.after (m : Monitor) (outs : List Out) : Monitor :=
  outs.foldl (fun m o => m.next o.acked) m

@[simp] theorem Monitor.after_nil (m : Monitor) : m.after [] = m := rfl

@[simp] theorem Monitor.after_cons (m : Monitor) (o : Out) (outs : List Out) :
    m.after (o :: outs) = (m.next o.acked).after outs := rfl

@[simp] theorem Monitor.after_append (m : Monitor) (o1 o2 : List Out) :
    m.after (o1 ++ o2) = (m.after o1).after o2 := List.foldl_append

theorem next_outOf_acked (m : Monitor) (e : Event) : m.next (outOf e).acked = m.next e := by
  obtain ⟨p, sent⟩ := m
  cases e with
  | w a b answer =>
    cases p with
    | down k first lo => cases first <;> rfl
    | _ => rfl
  | d ns => rfl

theorem foldl_next_eq_after (new : List Event) (m : Monitor) :
    new.foldl Monitor.next m = m.after (new.map outOf) := by
  induction new generalizing m with
  | nil => rfl
  | cons e es ih => simp [ih, next_outOf_acked]

theorem Drives.monitor_eq {s t : State} {outs : List Out} (h : Drives s t outs) :
    monitor t.tr = (monitor s.tr).after outs := by
  obtain ⟨new, rfl, ht⟩ := h
  rw [ht, ← foldl_next_eq_after]
  exact List.foldl_append

/-! ## Expander bytes at the wiring of R98 -/

/-- The Enable-low byte of a pulse of `v`, the one that the controller latches (R132). -/
def lowByte (s : State) (v : Byte) : Byte := (v &&& ~~~s.par.enMask) ||| backlightBit s

theorem backlightBit_eq_or {s : State} (hw : s.par.wired) : backlightBit s = 0x00 ∨ backlightBit s = 0x08 := by
  obtain ⟨-, -, hbl, -⟩ := hw
  cases h : s.bl <;> simp [backlightBit, h, hbl]

theorem enableBit_high {s : State} (hw : s.par.wired) (v : Byte) :
    enableBit (v ||| s.par.enMask ||| backlightBit s) = true := by
  obtain ⟨hen, -⟩ := hw
  simp [enableBit, hen]

theorem lowByte_eq {s : State} (hw : s.par.wired) (v : Byte) :
    lowByte s v = (v ||| s.par.enMask ||| backlightBit s) &&& ~~~(0x04 : Byte) := by
  have ⟨hen, _⟩ := hw
  have hbl : backlightBit s &&& ~~~(0x04 : Byte) = backlightBit s := by
    rcases backlightBit_eq_or hw with h | h <;> rw [h] <;> decide
  rw [lowByte, hen, BitVec.and_or_distrib_right, BitVec.and_or_distrib_right, hbl]
  simp

theorem modeOf_lowByte {s : State} (hw : s.par.wired) (n : Byte) (m : Mode) (hn : n.getLsbD 0 = false) :
    modeOf (lowByte s (n ||| modeBit s.par m)) = m := by
  have ⟨hen, _, _, hrs⟩ := hw
  rcases backlightBit_eq_or hw with h | h <;> cases m <;>
    simp [modeOf, lowByte, modeBit, hen, hrs, h, -BitVec.getLsbD_eq_getElem, hn]

theorem joinNibbles_lowByte {s : State} (hw : s.par.wired) (v : Byte) (m : Mode) :
    joinNibbles (lowByte s (highNibble v ||| modeBit s.par m)) (lowByte s (lowNibble v ||| modeBit s.par m)) = v := by
  have ⟨hen, _, _, hrs⟩ := hw
  ext i hi
  rcases backlightBit_eq_or hw with h | h <;> cases m <;> interval_cases i <;>
    simp [joinNibbles, highNibble, lowNibble, lowByte, modeBit, hen, hrs, h]

theorem recovery_nibble_latched {s : State} (hw : s.par.wired) (hc : s.par.coded) :
    isCommandNibble 3 (lowByte s (s.par.codes.functionSet ||| s.par.codes.eightBit)) = true := by
  have ⟨hen, _⟩ := hw
  rcases backlightBit_eq_or hw with h | h <;> rw [lowByte, hen, hc, h] <;> decide

theorem switch_nibble_latched {s : State} (hw : s.par.wired) (hc : s.par.coded) :
    isCommandNibble 2 (lowByte s (s.par.codes.functionSet ||| s.par.codes.fourBit)) = true := by
  have ⟨hen, _⟩ := hw
  rcases backlightBit_eq_or hw with h | h <;> rw [lowByte, hen, hc, h] <;> decide

/-! ## What the monitor makes of the events of a pulse -/

theorem next_up {k ns : Nat} (h : Config.minEn ≤ ns) (first : Option Byte) (hi : Byte) (sent : List (Mode × Byte)) :
    Monitor.next ⟨.up k first hi, sent⟩ (.d ns) = ⟨.held k first hi, sent⟩ := by
  simp [Monitor.next, phaseStep, completedByte, h]

theorem next_held (k : Nat) (first : Option Byte) (hi : Byte) (sent : List (Mode × Byte)) (a : DevAddr) (answer : Ack) :
    Monitor.next ⟨.held k first hi, sent⟩ (.w a (hi &&& ~~~(0x04 : Byte)) answer) =
      ⟨.down k first (hi &&& ~~~(0x04 : Byte)), sent⟩ := by
  simp [Monitor.next, phaseStep, completedByte]

theorem next_down_first {k ns : Nat} (h : Config.minCmd ≤ ns) (lo : Byte) (sent : List (Mode × Byte)) :
    Monitor.next ⟨.down k none lo, sent⟩ (.d ns) = ⟨.half k lo, sent⟩ := by
  simp [Monitor.next, phaseStep, completedByte, h]

theorem next_down_second {k ns : Nat} (h : Config.minCmd ≤ ns) {hi lo : Byte} (hm : modeOf hi = modeOf lo)
    (sent : List (Mode × Byte)) :
    Monitor.next ⟨.down k (some hi) lo, sent⟩ (.d ns) =
      ⟨if isSlow (modeOf lo) (joinNibbles hi lo) then .owed else .between 0,
        sent ++ [(modeOf lo, joinNibbles hi lo)]⟩ := by
  simp [Monitor.next, phaseStep, completedByte, h, hm]

theorem next_half_recovery {k ns : Nat} {lo : Byte} (hk : k < 3) (hlo : isCommandNibble 3 lo = true)
    (h : recoveryWait k ≤ ns) (sent : List (Mode × Byte)) :
    Monitor.next ⟨.half k lo, sent⟩ (.d ns) = ⟨.between (k + 1), sent⟩ := by
  have hnibble : k < 3 ∧ isCommandNibble 3 lo = true ∧ recoveryWait k ≤ ns := ⟨hk, hlo, h⟩
  simp only [Monitor.next, phaseStep, completedByte, if_pos hnibble, List.append_nil]

theorem next_owed {ns : Nat} (h : Config.minClear ≤ ns) (sent : List (Mode × Byte)) :
    Monitor.next ⟨.owed, sent⟩ (.d ns) = ⟨.between 0, sent⟩ := by
  simp [Monitor.next, phaseStep, completedByte, h]

/-- A write with Enable low, no more than a backlight bit, is no pulse (R220, R221). -/
theorem next_between_backlight {b : Byte} (h : b = 0x00 ∨ b = 0x08) (a : DevAddr) (answer : Ack)
    (sent : List (Mode × Byte)) :
    Monitor.next ⟨.between 0, sent⟩ (.w a b answer) = ⟨.between 0, sent⟩ := by
  rcases h with rfl | rfl <;> simp [Monitor.next, phaseStep, completedByte, enableBit]

/-- From phase `p` a write with Enable high opens a pulse, `k` recovery writes of an INIT being behind it and `first` the
nibble still pending. -/
def Phase.Opens (p : Phase) (k : Nat) (first : Option Byte) : Prop :=
  ∀ (a : DevAddr) (b : Byte) (answer : Ack) (sent : List (Mode × Byte)), enableBit b = true →
    Monitor.next ⟨p, sent⟩ (.w a b answer) = ⟨.up k first b, sent⟩

theorem opens_between (k : Nat) : (Phase.between k).Opens k none := by
  intro a b answer sent hb
  simp [Monitor.next, phaseStep, completedByte, hb]

theorem opens_half (lo : Byte) : (Phase.half 0 lo).Opens 0 (some lo) := by
  intro a b answer sent hb
  simp [Monitor.next, phaseStep, completedByte, hb]

/-- The nibble 0x2 after the three recovery writes is no half of a byte (R154). -/
theorem opens_switched {lo : Byte} (h : isCommandNibble 2 lo = true) : (Phase.half 3 lo).Opens 0 none := by
  intro a b answer sent hb
  simp only [Monitor.next, phaseStep, completedByte, hb, h]
  simp

/-! ## What the monitor makes of pulses, sent bytes and INIT's recovery -/

theorem after_pulseOuts {s : State} (hw : s.par.wired) (hl : s.par.legal) {p : Phase} {k : Nat} {first : Option Byte}
    (hp : p.Opens k first) (v : Byte) (sent : List (Mode × Byte)) :
    Monitor.after ⟨p, sent⟩ (pulseOuts s v) = Monitor.next ⟨.down k first (lowByte s v), sent⟩ (.d s.par.tCmd) := by
  obtain ⟨hen, -⟩ := hl
  have hlow : (v &&& ~~~s.par.enMask) ||| backlightBit s = _ := lowByte_eq hw v
  simp only [pulseOuts, Monitor.after_cons, Monitor.after_nil, Out.acked, hp _ _ _ _ (enableBit_high hw v), next_up hen,
    hlow, next_held, lowByte]

/-- A pulse with no nibble pending leaves its own nibble pending. -/
theorem after_first_pulse {s : State} (hw : s.par.wired) (hl : s.par.legal) {p : Phase} {k : Nat} (hp : p.Opens k none)
    (v : Byte) (sent : List (Mode × Byte)) :
    Monitor.after ⟨p, sent⟩ (pulseOuts s v) = ⟨.half k (lowByte s v), sent⟩ := by
  have ⟨_, hcmd, _⟩ := hl
  rw [after_pulseOuts hw hl hp, next_down_first hcmd]

theorem after_sendOuts {s : State} (hw : s.par.wired) (hl : s.par.legal) {p : Phase} (hp : p.Opens 0 none)
    (v : Byte) (m : Mode) (sent : List (Mode × Byte)) :
    Monitor.after ⟨p, sent⟩ (sendOuts s v m) =
      ⟨if isSlow m v then .owed else .between 0, sent ++ [(m, v)]⟩ := by
  have ⟨_, hcmd, _⟩ := hl
  have hhi : modeOf (lowByte s (highNibble v ||| modeBit s.par m)) = m := modeOf_lowByte hw _ m (by simp [highNibble])
  have hlo : modeOf (lowByte s (lowNibble v ||| modeBit s.par m)) = m := modeOf_lowByte hw _ m (by simp [lowNibble])
  rw [sendOuts, Monitor.after_append, after_first_pulse hw hl hp, after_pulseOuts hw hl (opens_half _),
    next_down_second hcmd (hhi.trans hlo.symm), hlo, joinNibbles_lowByte hw]

/-- A recovery write and its wait count as one more recovery write, and send no byte (R139, R153). -/
theorem after_recovery_write {s : State} (hw : s.par.wired) (hl : s.par.legal) (hc : s.par.coded) {k wait : Nat}
    (hk : k < 3) (hwait : recoveryWait k ≤ wait) (sent : List (Mode × Byte)) :
    Monitor.after ⟨.between k, sent⟩ (pulseOuts s (s.par.codes.functionSet ||| s.par.codes.eightBit) ++ [.d wait]) =
      ⟨.between (k + 1), sent⟩ := by
  rw [Monitor.after_append, after_first_pulse hw hl (opens_between k)]
  exact next_half_recovery hk (recovery_nibble_latched hw hc) hwait sent

theorem after_recoveryOuts {s : State} (hw : s.par.wired) (hl : s.par.legal) (hc : s.par.coded)
    (sent : List (Mode × Byte)) :
    Monitor.after ⟨.between 0, sent⟩ (recoveryOuts s) = ⟨.between 3, sent⟩ := by
  have ⟨_, _, h1, h2, h3, _⟩ := hl
  simp only [recoveryOuts, List.append_assoc]
  rw [← List.append_assoc, Monitor.after_append, after_recovery_write hw hl hc (by decide) h1,
    ← List.append_assoc, Monitor.after_append, after_recovery_write hw hl hc (by decide) h2,
    after_recovery_write hw hl hc (by decide) h3]

/-! ## Steps of a trace that keeps the protocol -/

/-- The parameters are legal, wired and coded, and the trace keeps the protocol: what `Inv` says of them. -/
structure OnProtocol (s : State) : Prop where
  wired   : s.par.wired
  legal   : s.par.legal
  coded   : s.par.coded
  accepts : Monitor.accepts s.tr

theorem Inv.onProtocol {s : State} (h : Inv s) : OnProtocol s := ⟨h.wired, h.legal, h.coded, h.protocol⟩

/-- `t` keeps the protocol and the parameters of `s`, and the bytes sent to the controller since `s` are exactly
`bytes`. -/
structure Tells (s t : State) (bytes : List (Mode × Byte)) : Prop where
  onProtocol : OnProtocol t
  par_eq     : t.par = s.par
  sent_eq    : (monitor t.tr).sent = (monitor s.tr).sent ++ bytes

theorem Tells.trans {s t u : State} {b1 b2 : List (Mode × Byte)} (h1 : Tells s t b1) (h2 : Tells t u b2) :
    Tells s u (b1 ++ b2) :=
  ⟨h2.onProtocol, h2.par_eq.trans h1.par_eq, by rw [h2.sent_eq, h1.sent_eq, List.append_assoc]⟩

/-- What writes neither the trace nor the parameters sends nothing. -/
theorem OnProtocol.tells_nothing {s t : State} (hs : OnProtocol s) (hp : t.par = s.par) (ht : t.tr = s.tr) :
    Tells s t [] where
  onProtocol := ⟨hp ▸ hs.wired, hp ▸ hs.legal, hp ▸ hs.coded, ht ▸ hs.accepts⟩
  par_eq := hp
  sent_eq := by rw [ht, List.append_nil]

theorem Drives.tells {s t : State} {outs : List Out} {bytes : List (Mode × Byte)} (h : Drives s t outs)
    (hs : OnProtocol s)
    (ho : ∀ sent, Monitor.after ⟨.between 0, sent⟩ outs = ⟨.between 0, sent ++ bytes⟩) : Tells s t bytes := by
  obtain ⟨-, -, -, hp, -⟩ := h.keeps
  have hm : monitor t.tr = ⟨.between 0, (monitor s.tr).sent ++ bytes⟩ := by
    rw [h.monitor_eq, ← ho, ← hs.accepts]
  exact ⟨⟨hp ▸ hs.wired, hp ▸ hs.legal, hp ▸ hs.coded, by rw [Monitor.accepts, hm]⟩, hp, by rw [hm]⟩

/-! ### The operations that the requests share -/

theorem setMeta_tells {s : State} (hs : OnProtocol s) (v : MetaState) : Tells s (setMeta v s) [] :=
  hs.tells_nothing rfl rfl

theorem setAspace_tells {s : State} (hs : OnProtocol s) (v : Aspace) : Tells s (setAspace v s) [] :=
  hs.tells_nothing rfl rfl

theorem setRx_tells {s : State} (hs : OnProtocol s) (v : Rx) : Tells s (setRx v s) [] :=
  hs.tells_nothing rfl rfl

theorem setReq_tells {s : State} (hs : OnProtocol s) (v : List Byte) : Tells s (setReq v s) [] :=
  hs.tells_nothing rfl rfl

theorem raise_tells {s : State} (hs : OnProtocol s) (x : FaultCause) : Tells s (raise x s) [] :=
  hs.tells_nothing rfl rfl

theorem preinitCheck_tells {s : State} (hs : OnProtocol s) : Tells s (preinitCheck s) [] :=
  hs.tells_nothing (by simp) (by simp)

theorem reinitCheck_tells {s : State} (hs : OnProtocol s) : Tells s (reinitCheck s) [] :=
  hs.tells_nothing (by simp) (by simp)

theorem cgstaleCheck_tells {s : State} (hs : OnProtocol s) : Tells s (cgstaleCheck s) [] :=
  hs.tells_nothing (by simp) (by simp)

theorem send_tells {s : State} (hs : OnProtocol s) {v : Byte} {m : Mode} (h : isSlow m v = false) :
    Tells s (send v m s) [(m, v)] :=
  (send_drives v m s).tells hs fun sent => by
    simp [after_sendOuts hs.wired hs.legal (opens_between 0), h]

/-- A clear or home command with its execution time (R160, R161). -/
theorem send_slow_tells {s : State} (hs : OnProtocol s) {v : Byte} {wait : Nat} (h : isSlow .command v = true)
    (hwait : Config.minClear ≤ wait) : Tells s (delay wait (send v .command s)) [(.command, v)] :=
  ((send_drives v .command s).trans (delay_drives wait _)).tells hs fun sent => by
    simp [after_sendOuts hs.wired hs.legal (opens_between 0), h, Out.acked, next_owed hwait]

theorem sendAll_tells {s : State} (hs : OnProtocol s) (vs : List Byte) :
    Tells s (sendAll .data vs s) (vs.map (Mode.data, ·)) := by
  induction vs generalizing s with
  | nil => exact hs.tells_nothing rfl rfl
  | cons v vs ih =>
    have h := send_tells hs (v := v) (m := .data) rfl
    exact h.trans (ih h.onProtocol)

/-- A byte with one of its bits 2 to 7 set is neither clear nor home. -/
theorem isSlow_of_bit {v : Byte} {n : Nat} (hn : 2 ≤ n) (h : v.getLsbD n = true) (m : Mode) : isSlow m v = false := by
  have hge : 2 ^ n ≤ v.toNat := Nat.ge_two_pow_of_testBit h
  have hpow : 2 ^ 2 ≤ 2 ^ n := Nat.pow_le_pow_right (by decide) hn
  have hlt : ¬ v.toNat < 4 := by omega
  simp [isSlow, hlt]

theorem sendCommand_tells {s : State} (hs : OnProtocol s) {v : Byte} (h : isSlow .command v = false) :
    Tells s (sendCommand v s) [(.command, v)] :=
  have h1 := preinitCheck_tells hs
  h1.trans (send_tells h1.onProtocol h)

theorem recovery_writeFunc_tells {s : State} (hs : OnProtocol s) (v : Byte) :
    Tells s (writeFunc v (recovery s)) [(.command, functionSetByte s.par.codes v)] := by
  have ⟨hw, hl, hc, _⟩ := hs
  have hrec := recovery_drives s
  obtain ⟨-, -, -, hp, -⟩ := hrec.keeps
  have hdrives := (hrec.setFunc v).trans (writeFunc_drives v (recovery s))
  rw [hrec.sendOuts_eq, hp] at hdrives
  have h1 : Tells s (setFunc v s) [] := hs.tells_nothing rfl rfl
  have hslow : isSlow .command (functionSetByte s.par.codes v) = false :=
    isSlow_of_bit (n := 5) (by decide) (by rw [hc]; simp [functionSetByte, Config.codes]) _
  refine h1.trans (hdrives.tells h1.onProtocol fun sent => ?_)
  rw [Monitor.after_append, Monitor.after_append, after_recoveryOuts hw hl hc,
    after_first_pulse hw hl (opens_between 3), after_sendOuts hw hl (opens_switched (switch_nibble_latched hw hc))]
  unfold functionSetByte at hslow ⊢
  rw [hslow]
  rfl

theorem writeCtrl_tells {s : State} (hs : OnProtocol s) (v : Byte) :
    Tells s (writeCtrl v s) [(.command, displayControlByte s.par.codes v)] := by
  have h1 : Tells s (setCtrl v s) [] := hs.tells_nothing rfl rfl
  have hslow : isSlow .command (displayControlByte s.par.codes v) = false :=
    isSlow_of_bit (n := 3) (by decide) (by rw [hs.coded]; simp [displayControlByte, Config.codes]) _
  exact h1.trans (send_tells h1.onProtocol hslow)

theorem writeEntry_tells {s : State} (hs : OnProtocol s) (v : Byte) :
    Tells s (writeEntry v s) [(.command, entryModeByte s.par.codes v)] := by
  have h1 : Tells s (setEntry v s) [] := hs.tells_nothing rfl rfl
  have hslow : isSlow .command (entryModeByte s.par.codes v) = false :=
    isSlow_of_bit (n := 2) (by decide) (by rw [hs.coded]; simp [entryModeByte, Config.codes]) _
  exact h1.trans (send_tells h1.onProtocol hslow)

theorem updateCtrl_tells {s : State} (hs : OnProtocol s) (f : Byte → Byte) :
    Tells s (updateCtrl f s) [(.command, displayControlByte s.par.codes (f s.ctrl))] := by
  have h1 := preinitCheck_tells hs
  have h2 := h1.trans (writeCtrl_tells h1.onProtocol (f s.ctrl))
  rwa [preinitCheck_par] at h2

theorem updateEntry_tells {s : State} (hs : OnProtocol s) (f : Byte → Byte) :
    Tells s (updateEntry f s) [(.command, entryModeByte s.par.codes (f s.entry))] := by
  have h1 := preinitCheck_tells hs
  have h2 := h1.trans (writeEntry_tells h1.onProtocol (f s.entry))
  rwa [preinitCheck_par] at h2

theorem clearDisplay_tells {s : State} (hs : OnProtocol s) :
    Tells s (clearDisplay s) [(.command, s.par.codes.clearDisplay)] := by
  obtain ⟨-, -, -, -, -, hclear, -⟩ := hs.legal
  have h := send_slow_tells hs (v := s.par.codes.clearDisplay) (by rw [hs.coded]; decide) hclear
  exact h.trans (setAspace_tells h.onProtocol .ddram)

theorem writeChar_tells {s : State} (hs : OnProtocol s) (c : Byte) : Tells s (writeChar c s) [(.data, c)] :=
  have h1 := preinitCheck_tells hs
  have h2 := h1.trans (cgstaleCheck_tells h1.onProtocol)
  h2.trans (send_tells h2.onProtocol rfl)

theorem writeChars_tells {s : State} (hs : OnProtocol s) (cs : List Byte) :
    Tells s (writeChars cs s) (cs.map (Mode.data, ·)) := by
  induction cs generalizing s with
  | nil => exact hs.tells_nothing rfl rfl
  | cons c cs ih =>
    have h := writeChar_tells hs c
    exact h.trans (ih h.onProtocol)

theorem writeBacklight_tells {s : State} (hs : OnProtocol s) (on : Bool) : Tells s (writeBacklight on s) [] := by
  have h1 : Tells s { s with bl := on, faults := preinitMark s } [] := hs.tells_nothing rfl rfl
  have hbyte : (if on then s.par.blMask else 0x00) = 0x00 ∨ (if on then s.par.blMask else 0x00) = 0x08 :=
    backlightBit_eq_or (s := { s with bl := on }) hs.wired
  refine h1.trans ((writeBacklight_drives on s).tells h1.onProtocol fun sent => ?_)
  rw [List.append_nil]
  exact next_between_backlight hbyte _ _ sent

/-! ## The bytes that each request sends -/

/-- The bytes that a request sends to the controller, with their modes (R150 to R221). -/
def bytesSent (s : State) : Instr → List (Mode × Byte)
  | .init =>
    [(.command, functionSetByte s.par.codes (computedFunc s.par.codes s.lines)),
     (.command, displayControlByte s.par.codes (baselineCtrl s.par)),
     (.command, entryModeByte s.par.codes (baselineEntry s.par)), (.command, s.par.codes.clearDisplay)]
  | .clear => [(.command, s.par.codes.clearDisplay)]
  | .home => [(.command, s.par.codes.returnHome)]
  | .setpos line col => [(.command, setposByte s.par.codes line col)]
  | .display => [(.command, displayControlByte s.par.codes (setBits s.par.codes.displayOn s.ctrl))]
  | .nodisplay => [(.command, displayControlByte s.par.codes (clearBits s.par.codes.displayOn s.ctrl))]
  | .cursor => [(.command, displayControlByte s.par.codes (setBits s.par.codes.cursorOn s.ctrl))]
  | .nocursor => [(.command, displayControlByte s.par.codes (clearBits s.par.codes.cursorOn s.ctrl))]
  | .blink => [(.command, displayControlByte s.par.codes (setBits s.par.codes.blinkOn s.ctrl))]
  | .noblink => [(.command, displayControlByte s.par.codes (clearBits s.par.codes.blinkOn s.ctrl))]
  | .scrollLeft => [(.command, shiftByte s.par.codes s.par.codes.moveLeft)]
  | .scrollRight => [(.command, shiftByte s.par.codes s.par.codes.moveRight)]
  | .leftToRight => [(.command, entryModeByte s.par.codes (setBits s.par.codes.leftToRight s.entry))]
  | .rightToLeft => [(.command, entryModeByte s.par.codes (clearBits s.par.codes.leftToRight s.entry))]
  | .autoscroll => [(.command, entryModeByte s.par.codes (setBits s.par.codes.autoscroll s.entry))]
  | .noautoscroll => [(.command, entryModeByte s.par.codes (clearBits s.par.codes.autoscroll s.entry))]
  | .createchar slot glyph => (.command, createcharByte s.par.codes slot) :: glyph.rows.map (.data, ·)
  | .backlight => []
  | .nobacklight => []
  | .write c => [(.data, c)]
  | .printstr text => text.map (.data, ·)
  | .drawHgraph _ _ _ _ => []
  | .drawVgraph _ _ _ _ => []

theorem init_tells {s : State} (hs : OnProtocol s) : ∃ t, execInit s = .next t ∧ Tells s t (bytesSent s .init) := by
  refine ⟨_, rfl, ?_⟩
  have h1 := reinitCheck_tells hs
  have h2 := h1.trans (recovery_writeFunc_tells h1.onProtocol (computedFunc s.par.codes s.lines))
  have h3 := h2.trans (writeCtrl_tells h2.onProtocol (baselineCtrl s.par))
  have h4 := h3.trans (writeEntry_tells h3.onProtocol (baselineEntry s.par))
  have h5 := h4.trans (clearDisplay_tells h4.onProtocol)
  have h6 := h5.trans (setMeta_tells h5.onProtocol .oper)
  rw [h4.par_eq, h3.par_eq, h2.par_eq, h1.par_eq] at h6
  exact h6

theorem home_tells {s : State} (hs : OnProtocol s) : ∃ t, execHome s = .next t ∧ Tells s t (bytesSent s .home) := by
  obtain ⟨-, -, -, -, -, -, hhome⟩ := hs.legal
  have h1 := preinitCheck_tells hs
  have h2 := h1.trans (send_slow_tells h1.onProtocol (v := s.par.codes.returnHome) (by rw [hs.coded]; decide) hhome)
  exact ⟨_, rfl, h2.trans (setAspace_tells h2.onProtocol .ddram)⟩

theorem clear_tells {s : State} (hs : OnProtocol s) : ∃ t, execClear s = .next t ∧ Tells s t (bytesSent s .clear) := by
  have h1 := preinitCheck_tells hs
  have h2 := h1.trans (clearDisplay_tells h1.onProtocol)
  rw [preinitCheck_par] at h2
  exact ⟨_, rfl, h2⟩

theorem setpos_tells {s : State} (hs : OnProtocol s) (line col : Byte) :
    ∃ t, execSetpos line col s = .next t ∧ Tells s t (bytesSent s (.setpos line col)) := by
  have hslow : isSlow .command (setposByte s.par.codes line col) = false :=
    isSlow_of_bit (n := 7) (by decide) (by rw [hs.coded]; simp [setposByte, Config.codes]) _
  have h := sendCommand_tells hs hslow
  exact ⟨_, rfl, h.trans (setAspace_tells h.onProtocol .ddram)⟩

theorem createchar_tells {s : State} (hs : OnProtocol s) (slot : Byte) (glyph : Glyph) :
    ∃ t, execCreatechar slot glyph s = .next t ∧ Tells s t (bytesSent s (.createchar slot glyph)) := by
  have hslow : isSlow .command (createcharByte s.par.codes slot) = false :=
    isSlow_of_bit (n := 6) (by decide) (by rw [hs.coded]; simp [createcharByte, Config.codes]) _
  have h1 := sendCommand_tells hs hslow
  have h2 := h1.trans (sendAll_tells h1.onProtocol glyph.rows)
  have h3 := h2.trans (setAspace_tells h2.onProtocol .cgram)
  rw [List.append_nil] at h3
  exact ⟨_, rfl, h3⟩

theorem isSlow_shiftByte {s : State} (hs : OnProtocol s) (direction : Byte) :
    isSlow .command (shiftByte s.par.codes direction) = false :=
  isSlow_of_bit (n := 4) (by decide) (by rw [hs.coded]; simp [shiftByte, Config.codes]) _

/-- From a trace that keeps the protocol every request completes, keeps it, and sends its bytes, whatever the
registers. -/
theorem exec_tells {s : State} (hs : OnProtocol s) (i : Instr) :
    ∃ t, exec i s = .next t ∧ Tells s t (bytesSent s i) := by
  cases i with
  | init => exact init_tells hs
  | clear => exact clear_tells hs
  | home => exact home_tells hs
  | setpos line col => exact setpos_tells hs line col
  | display | nodisplay | cursor | nocursor | blink | noblink => exact ⟨_, rfl, updateCtrl_tells hs _⟩
  | scrollLeft | scrollRight => exact ⟨_, rfl, sendCommand_tells hs (isSlow_shiftByte hs _)⟩
  | leftToRight | rightToLeft | autoscroll | noautoscroll => exact ⟨_, rfl, updateEntry_tells hs _⟩
  | createchar slot glyph => exact createchar_tells hs slot glyph
  | backlight => exact ⟨_, rfl, writeBacklight_tells hs true⟩
  | nobacklight => exact ⟨_, rfl, writeBacklight_tells hs false⟩
  | write c => exact ⟨_, rfl, writeChar_tells hs c⟩
  | printstr text =>
    have h := preinitCheck_tells hs
    exact ⟨_, rfl, h.trans (writeChars_tells h.onProtocol text)⟩
  | drawHgraph | drawVgraph => exact ⟨_, rfl, hs.tells_nothing rfl rfl⟩

/-! ## The bytes that a step sends -/

/-- The bytes that a step sends: those of the job in execution, and none while the decoder takes a byte (R95). -/
def stepBytes (s : State) : List (Mode × Byte) :=
  match s.rx with
  | .exec (.request i) _ => bytesSent s i
  | .exec (.printstrChar c) _ => [(.data, c)]
  | _ => []

theorem execJob_tells {s : State} (hs : OnProtocol s) {job : Job} {ret : Ret} (hrx : s.rx = .exec job ret) :
    ∃ t, execJob job s = .next t ∧ Tells s t (stepBytes s) := by
  cases job with
  | request i => simpa only [stepBytes, hrx, execJob] using exec_tells hs i
  | printstrChar c => simpa [stepBytes, hrx, execJob] using writeChar_tells hs c

theorem enterExec_next {bytes : List Byte} {s t : State} (h : enterExec bytes s = .next t) :
    ∃ i, t = setRx (.exec (.request i) .idle) s := by
  unfold enterExec at h
  split at h
  · exact ⟨_, (Host.Outcome.next.inj h).symm⟩
  · cases h

theorem enterExec_tells {bytes : List Byte} {s t : State} (hs : OnProtocol s) (h : enterExec bytes s = .next t) :
    Tells s t [] := by
  obtain ⟨i, rfl⟩ := enterExec_next h
  exact setRx_tells hs _

theorem takeOpcode_tells {b : Byte} {s t : State} (hs : OnProtocol s) (h : takeOpcode b s = .next t) :
    Tells s t [] := by
  unfold takeOpcode at h
  split_ifs at h
  · cases h; exact raise_tells hs .illop
  · obtain ⟨u, hu, htells⟩ := exec_tells hs (.printstr [])
    rw [hu] at h
    cases h
    exact htells.trans (setRx_tells htells.onProtocol .stream)
  · exact enterExec_tells hs h
  · cases h; exact setRx_tells hs _

theorem takeOperand_tells {op b : Byte} {buf : List Byte} {k : Nat} {s t : State} (hs : OnProtocol s)
    (h : takeOperand op buf k b s = .next t) : Tells s t [] := by
  unfold takeOperand at h
  split_ifs at h
  · exact enterExec_tells hs h
  · cases h; exact setRx_tells hs _

theorem takeStream_tells {b : Byte} {s t : State} (hs : OnProtocol s) (h : takeStream b s = .next t) :
    Tells s t [] := by
  unfold takeStream at h
  split_ifs at h <;> cases h <;> exact setRx_tells hs _

theorem takeByte_tells {take : Byte → State → Host.Outcome State Fault Refusal} {s t : State} (hs : OnProtocol s)
    (htake : ∀ {b : Byte} {u : State}, OnProtocol u → take b u = .next t → Tells u t [])
    (h : takeByte take s = .next t) : Tells s t [] := by
  unfold takeByte at h
  split at h
  · cases h; exact hs.tells_nothing rfl rfl
  · next b rest _ =>
    have h1 := setReq_tells hs rest
    exact h1.trans (htake h1.onProtocol h)

/-- Every step keeps the protocol and sends the bytes of the job it executes (R133, R134, R286). -/
theorem step_tells {s t : State} (hs : OnProtocol s) (h : step s = .next t) : Tells s t (stepBytes s) := by
  cases hrx : s.rx with
  | exec job ret =>
    obtain ⟨u, hu, htells⟩ := execJob_tells hs hrx
    rw [step_exec hrx, hu] at h
    cases h
    simpa using htells.trans (setRx_tells htells.onProtocol (rxOf ret))
  | idle =>
    simp only [step, sequencerStep, hrx] at h
    simpa only [stepBytes, hrx] using takeByte_tells hs takeOpcode_tells h
  | collect op buf k =>
    simp only [step, sequencerStep, hrx] at h
    simpa only [stepBytes, hrx] using takeByte_tells hs takeOperand_tells h
  | stream =>
    simp only [step, sequencerStep, hrx] at h
    simpa only [stepBytes, hrx] using takeByte_tells hs takeStream_tells h

/-! ## FUNCTIONSET bytes among those sent -/

theorem isFunctionSet_command (v : Byte) :
    isFunctionSet (.command, v) = (!v.getLsbD 7 && !v.getLsbD 6 && v.getLsbD 5) := by
  revert v
  decide

theorem isFunctionSet_or {op v : Byte} (hop : op.getLsbD 5 = false) (hv : v.getLsbD 5 = false) :
    isFunctionSet (.command, op ||| v) = false := by
  rw [isFunctionSet_command, BitVec.getLsbD_or (i := 5), hop, hv]
  exact Bool.and_false _

theorem isFunctionSet_displayControlByte {c : Codes} (hc : c = Config.codes) {v : Byte} (h : v.getLsbD 5 = false) :
    isFunctionSet (.command, displayControlByte c v) = false :=
  isFunctionSet_or (by rw [hc]; decide) h

theorem isFunctionSet_entryModeByte {c : Codes} (hc : c = Config.codes) {v : Byte} (h : v.getLsbD 5 = false) :
    isFunctionSet (.command, entryModeByte c v) = false :=
  isFunctionSet_or (by rw [hc]; decide) h

theorem isFunctionSet_setposByte {c : Codes} (hc : c = Config.codes) (line col : Byte) :
    isFunctionSet (.command, setposByte c line col) = false := by
  rw [isFunctionSet_command, setposByte, hc]
  simp [Config.codes]

theorem isFunctionSet_createcharByte {c : Codes} (hc : c = Config.codes) (slot : Byte) :
    isFunctionSet (.command, createcharByte c slot) = false := by
  rw [isFunctionSet_command, createcharByte, hc]
  simp [Config.codes]

/-- INIT's FUNCTIONSET byte is 0x28 or 0x20 (R151). -/
theorem functionSetByte_computedFunc {c : Codes} (hc : c = Config.codes) (lines : Byte) :
    functionSetByte c (computedFunc c lines) = 0x28 ∨ functionSetByte c (computedFunc c lines) = 0x20 := by
  subst hc
  unfold functionSetByte computedFunc
  split
  · left; decide
  · right; decide

theorem getLsbD_eq_false_of_and_eq_zero {v mask : Byte} (h : v &&& mask = 0) {n : Nat} (hn : mask.getLsbD n = true) :
    v.getLsbD n = false := by
  have hbit := congrArg (·.getLsbD n) h
  simpa [-BitVec.getLsbD_eq_getElem, BitVec.getLsbD_and, hn] using hbit

theorem getLsbD_setBits_eq_false {mask r : Byte} {n : Nat} (hm : mask.getLsbD n = false) (hr : r.getLsbD n = false) :
    (setBits mask r).getLsbD n = false := by
  rw [setBits, BitVec.getLsbD_or, hm, hr]; rfl

theorem getLsbD_clearBits_eq_false (mask : Byte) {r : Byte} {n : Nat} (hr : r.getLsbD n = false) :
    (clearBits mask r).getLsbD n = false := by
  rw [clearBits, BitVec.getLsbD_and, hr, Bool.false_and]

/-- Only INIT sends a FUNCTIONSET byte, where the reserved bits of CTRL and ENTRY are 0. -/
theorem bytesSent_no_functionSet {s : State} (hc : s.par.coded) (hr : ReservedZero s) {i : Instr} (hi : i ≠ .init)
    {x : Mode × Byte} (hx : x ∈ bytesSent s i) : isFunctionSet x = false := by
  obtain ⟨-, hctrl, hentry⟩ := hr
  have hctrl5 : s.ctrl.getLsbD 5 = false := getLsbD_eq_false_of_and_eq_zero hctrl (by decide)
  have hentry5 : s.entry.getLsbD 5 = false := getLsbD_eq_false_of_and_eq_zero hentry (by decide)
  cases i with
  | init => exact absurd rfl hi
  | clear | home | scrollLeft | scrollRight =>
    rw [List.mem_singleton.mp hx, hc]; decide
  | setpos line col => rw [List.mem_singleton.mp hx]; exact isFunctionSet_setposByte hc line col
  | display | cursor | blink =>
    rw [List.mem_singleton.mp hx]
    exact isFunctionSet_displayControlByte hc (getLsbD_setBits_eq_false (by rw [hc]; decide) hctrl5)
  | nodisplay | nocursor | noblink =>
    rw [List.mem_singleton.mp hx]
    exact isFunctionSet_displayControlByte hc (getLsbD_clearBits_eq_false _ hctrl5)
  | leftToRight | autoscroll =>
    rw [List.mem_singleton.mp hx]
    exact isFunctionSet_entryModeByte hc (getLsbD_setBits_eq_false (by rw [hc]; decide) hentry5)
  | rightToLeft | noautoscroll =>
    rw [List.mem_singleton.mp hx]
    exact isFunctionSet_entryModeByte hc (getLsbD_clearBits_eq_false _ hentry5)
  | createchar slot glyph =>
    rcases List.mem_cons.mp hx with rfl | hrow
    · exact isFunctionSet_createcharByte hc slot
    · obtain ⟨row, -, rfl⟩ := List.mem_map.mp hrow
      rfl
  | write c => rw [List.mem_singleton.mp hx]; rfl
  | printstr text =>
    obtain ⟨c, -, rfl⟩ := List.mem_map.mp hx
    rfl
  | backlight | nobacklight | drawHgraph | drawVgraph => cases hx

/-- INIT sends one FUNCTIONSET byte first, and no other. -/
theorem bytesSent_init_functionSet {s : State} (hc : s.par.coded) {x : Mode × Byte} (hx : x ∈ bytesSent s .init)
    (hf : isFunctionSet x = true) : x = (.command, functionSetByte s.par.codes (computedFunc s.par.codes s.lines)) := by
  simp only [bytesSent, List.mem_cons, List.not_mem_nil, or_false] at hx
  rcases hx with rfl | rfl | rfl | rfl
  · rfl
  · rw [isFunctionSet_displayControlByte hc (by simp [baselineCtrl])] at hf; cases hf
  · rw [isFunctionSet_entryModeByte hc (by simp [baselineEntry])] at hf; cases hf
  · rw [hc] at hf; cases hf

theorem stepBytes_fourBit {s : State} (hc : s.par.coded) (hr : ReservedZero s) {x : Mode × Byte}
    (hx : x ∈ stepBytes s) (hf : isFunctionSet x = true) : x.2.getLsbD 4 = false := by
  unfold stepBytes at hx
  split at hx
  · next i ret hrx =>
    by_cases hi : i = .init
    · subst hi
      rw [bytesSent_init_functionSet hc hx hf]
      rcases functionSetByte_computedFunc hc s.lines with h | h <;> rw [h] <;> decide
    · rw [bytesSent_no_functionSet hc hr hi hx] at hf; cases hf
  · rw [List.mem_singleton.mp hx] at hf; cases hf
  · cases hx

/-- Settles O57: a step sends exactly `stepBytes`, and among them only INIT's first byte, 0x28 or 0x20, is a
FUNCTIONSET. -/
theorem controllerIsDrivenInFourBitModeOnly : Obligations.ControllerIsDrivenInFourBitModeOnly := by
  intro s t hinv hstep
  refine ⟨stepBytes s, (step_tells hinv.onProtocol hstep).sent_eq,
    fun x hx hf => stepBytes_fourBit hinv.coded hinv.reserved hx hf, ?_⟩
  rintro ⟨ret, hrx⟩
  refine ⟨(.command, functionSetByte s.par.codes (computedFunc s.par.codes s.lines)), ?_, ?_⟩
  · simp [stepBytes, hrx, bytesSent]
  · rcases functionSetByte_computedFunc hinv.coded s.lines with h | h <;> rw [h] <;> decide

/-- Settles O56: `State.reset` has the parameters `Config.params`, and its constants are `Config.codes`. -/
theorem resetParametersAreTheDefaults : Obligations.ResetParametersAreTheDefaults := by
  unfold Obligations.ResetParametersAreTheDefaults
  rw [show State.reset.par = Config.params from rfl]
  decide

end Sys2Proof.Machine

/-! The state over every request and step (spec/10_state.md): what a request makes of the registers and puts on the bus
(`exec_completes`), what a step can do (`step_cases`), and with them the statements about the state and the invariant. -/

namespace Sys2Proof.Machine

/-! ## What each request makes of the registers and puts on the bus -/

/-- `FUNC` after a request (R26). -/
def funcAfter (s : State) : Instr → Byte
  | .init => computedFunc s.par.codes s.lines
  | _ => s.func

/-- `CTRL` after a request (R152, R164). -/
def ctrlAfter (s : State) : Instr → Byte
  | .init => baselineCtrl s.par
  | .display => setBits s.par.codes.displayOn s.ctrl
  | .nodisplay => clearBits s.par.codes.displayOn s.ctrl
  | .cursor => setBits s.par.codes.cursorOn s.ctrl
  | .nocursor => clearBits s.par.codes.cursorOn s.ctrl
  | .blink => setBits s.par.codes.blinkOn s.ctrl
  | .noblink => clearBits s.par.codes.blinkOn s.ctrl
  | _ => s.ctrl

/-- `ENTRY` after a request (R152, R173). -/
def entryAfter (s : State) : Instr → Byte
  | .init => baselineEntry s.par
  | .leftToRight => setBits s.par.codes.leftToRight s.entry
  | .rightToLeft => clearBits s.par.codes.leftToRight s.entry
  | .autoscroll => setBits s.par.codes.autoscroll s.entry
  | .noautoscroll => clearBits s.par.codes.autoscroll s.entry
  | _ => s.entry

/-- `BL` after a request (R220, R221). -/
def blAfter (s : State) : Instr → Bool
  | .backlight => true
  | .nobacklight => false
  | _ => s.bl

/-- `META` after a request (R31). -/
def metaAfter (s : State) : Instr → MetaState
  | .init => .oper
  | _ => s.metaState

/-- The sticky bits after a request, but for BUSERR, which the bus decides (R245 to R247). -/
def faultsAfter (s : State) : Instr → Faults
  | .init => { s.faults with reinit := s.faults.reinit || decide (s.metaState = .oper) }
  | .write _ => { preinitMark s with cgstale := s.faults.cgstale || decide (s.aspace = .cgram) }
  | .printstr (_ :: _) => { preinitMark s with cgstale := s.faults.cgstale || decide (s.aspace = .cgram) }
  | .drawHgraph _ _ _ _ => s.faults
  | .drawVgraph _ _ _ _ => s.faults
  | _ => preinitMark s

/-- The state with the registers as a request leaves them (R39). -/
def registersAfter (s : State) (i : Instr) : State :=
  { s with
    func := funcAfter s i
    ctrl := ctrlAfter s i
    entry := entryAfter s i
    bl := blAfter s i
    metaState := metaAfter s i
    aspace := aspaceAfter i s.aspace
    faults := faultsAfter s i }

/-- What a request's bytes put on the bus. -/
def bytesOuts (s : State) (i : Instr) : List Out :=
  (bytesSent s i).flatMap fun x => sendOuts s x.2 x.1

/-- What a request puts on the bus: its bytes, INIT's recovery and switch before them, the execution time of a clear or
home after them, and the one write of a backlight request (R289). -/
def requestOuts (s : State) : Instr → List Out
  | .init =>
    recoveryOuts s ++ pulseOuts s (s.par.codes.functionSet ||| s.par.codes.fourBit) ++ bytesOuts s .init ++
      [.d s.par.tClear]
  | .clear => bytesOuts s .clear ++ [.d s.par.tClear]
  | .home => bytesOuts s .home ++ [.d s.par.tHome]
  | .backlight => [.w s.devAddr s.par.blMask]
  | .nobacklight => [.w s.devAddr 0x00]
  | i => bytesOuts s i

/-- What `Drives` keeps (`Drives.keeps`), by name. -/
structure Kept (s t : State) : Prop where
  devAddr   : t.devAddr = s.devAddr
  lines     : t.lines = s.lines
  cols      : t.cols = s.cols
  par       : t.par = s.par
  func      : t.func = s.func
  ctrl      : t.ctrl = s.ctrl
  entry     : t.entry = s.entry
  bl        : t.bl = s.bl
  metaState : t.metaState = s.metaState
  aspace    : t.aspace = s.aspace
  rx        : t.rx = s.rx
  req       : t.req = s.req
  illop     : t.faults.illop = s.faults.illop
  preinit   : t.faults.preinit = s.faults.preinit
  reinit    : t.faults.reinit = s.faults.reinit
  cgstale   : t.faults.cgstale = s.faults.cgstale

theorem Drives.kept {s t : State} {outs : List Out} (h : Drives s t outs) : Kept s t := by
  obtain ⟨hdevAddr, hlines, hcols, hpar, hfunc, hctrl, hentry, hbl, hmeta, haspace, hrx, hreq, hillop, hpreinit, hreinit,
    hcgstale⟩ := h.keeps
  exact ⟨hdevAddr, hlines, hcols, hpar, hfunc, hctrl, hentry, hbl, hmeta, haspace, hrx, hreq, hillop, hpreinit, hreinit,
    hcgstale⟩

theorem Drives.tr_buserr {s t : State} {outs : List Out} (h : Drives s t outs) :
    ∃ new, new.map outOf = outs ∧ t.tr = s.tr ++ new ∧
      t.faults.buserr = (s.faults.buserr || new.any nacked) := by
  obtain ⟨new, hnew, ht⟩ := h
  exact ⟨new, hnew, by rw [ht], by rw [ht]⟩

theorem init_completes (s : State) : Completes .init s (registersAfter s .init) (requestOuts s .init) := by
  refine ⟨_, rfl, ?_⟩
  rw [reinitCheck_eq]
  have h1 := recovery_drives { s with faults := faultsAfter s .init }
  have h2 := (h1.setFunc (funcAfter s .init)).trans (writeFunc_drives (funcAfter s .init) _)
  have h3 := (h2.setCtrl (ctrlAfter s .init)).trans (writeCtrl_drives (ctrlAfter s .init) _)
  have h4 := (h3.setEntry (entryAfter s .init)).trans (writeEntry_drives (entryAfter s .init) _)
  have h5 := (h4.setAspace .ddram).trans (clearDisplay_drives _)
  rw [h1.sendOuts_eq, h2.sendOuts_eq, h3.sendOuts_eq, h4.sendOuts_eq, h1.kept.par, h2.kept.par, h3.kept.par,
    h4.kept.par] at h5
  have h6 := h5.setMeta .oper
  simp only [List.append_assoc] at h6
  simp only [requestOuts, bytesOuts, bytesSent, List.flatMap_cons, List.flatMap_nil, List.append_assoc, List.nil_append]
  exact h6

theorem clear_completes (s : State) : Completes .clear s (registersAfter s .clear) (requestOuts s .clear) := by
  refine ⟨_, rfl, ?_⟩
  rw [preinitCheck_mark]
  exact clearDisplay_drives { s with faults := preinitMark s }

theorem home_completes (s : State) : Completes .home s (registersAfter s .home) (requestOuts s .home) :=
  have h := (sendCommand_drives s.par.codes.returnHome s).trans (delay_drives s.par.tHome _)
  ⟨_, rfl, h.setAspace .ddram⟩

theorem createchar_completes (slot : Byte) (glyph : Glyph) (s : State) :
    Completes (.createchar slot glyph) s (registersAfter s (.createchar slot glyph))
      (requestOuts s (.createchar slot glyph)) := by
  refine ⟨_, rfl, ?_⟩
  have h1 := sendCommand_drives (createcharByte s.par.codes slot) s
  have h2 := h1.trans (sendAll_drives .data glyph.rows _)
  simp only [h1.sendOuts_eq] at h2
  simp only [requestOuts, bytesOuts, bytesSent, List.flatMap_cons, List.flatMap_map]
  exact h2.setAspace .cgram

/-! ### The characters of a PRINTSTR: after the first, the checks find nothing new to mark -/

theorem preinitCheck_of_marked {s : State} (h : s.metaState = .uninit → s.faults.preinit = true) :
    preinitCheck s = s := by
  unfold preinitCheck
  split
  · next hm => simp [raise, markFault, ← h hm]
  · rfl

theorem cgstaleCheck_of_marked {s : State} (h : s.aspace = .cgram → s.faults.cgstale = true) :
    cgstaleCheck s = s := by
  unfold cgstaleCheck
  split
  · next ha => simp [raise, markFault, ← h ha]
  · rfl

theorem writeChars_drives_of_marked {s : State} (hp : s.metaState = .uninit → s.faults.preinit = true)
    (hc : s.aspace = .cgram → s.faults.cgstale = true) (cs : List Byte) :
    Drives s (writeChars cs s) (cs.flatMap fun c => sendOuts s c .data) := by
  induction cs generalizing s with
  | nil => exact Drives.refl s
  | cons c cs ih =>
    have h1 := send_drives c .data s
    have hk := h1.kept
    have h2 := h1.trans (ih (by rwa [hk.metaState, hk.preinit]) (by rwa [hk.aspace, hk.cgstale]))
    simp only [h1.sendOuts_eq] at h2
    rwa [writeChars, writeChar, preinitCheck_of_marked hp, cgstaleCheck_of_marked hc, List.flatMap_cons]

theorem preinitCheck_preinitCheck (s : State) : preinitCheck (preinitCheck s) = preinitCheck s :=
  preinitCheck_of_marked fun hm => by
    rw [preinitCheck_metaState] at hm
    simp [preinitCheck_eq, hm]

theorem printstr_completes (text : List Byte) (s : State) :
    Completes (.printstr text) s (registersAfter s (.printstr text)) (requestOuts s (.printstr text)) := by
  refine ⟨_, rfl, ?_⟩
  simp only [requestOuts, bytesOuts, bytesSent, List.flatMap_map]
  cases text with
  | nil =>
    rw [writeChars, preinitCheck_mark]
    exact Drives.refl _
  | cons c cs =>
    have h1 := writeChar_drives c s
    have hk := h1.kept
    have hpre : (writeChar c s).metaState = .uninit → (writeChar c s).faults.preinit = true := fun hm => by
      rw [hk.preinit, preinitMark, ← hk.metaState, hm]; simp
    have hcg : (writeChar c s).aspace = .cgram → (writeChar c s).faults.cgstale = true := fun ha => by
      rw [hk.cgstale, ← hk.aspace, ha]; simp
    have h2 := h1.trans (writeChars_drives_of_marked hpre hcg cs)
    simp only [h1.sendOuts_eq] at h2
    rw [writeChars, writeChar, preinitCheck_preinitCheck]
    exact h2

/-- Every request completes: the registers become `registersAfter`, and `requestOuts` is put on the bus. -/
theorem exec_completes (i : Instr) (s : State) : Completes i s (registersAfter s i) (requestOuts s i) := by
  cases i with
  | init => exact init_completes s
  | clear => exact clear_completes s
  | home => exact home_completes s
  | createchar slot glyph => exact createchar_completes slot glyph s
  | printstr text => exact printstr_completes text s
  | setpos line col => exact ⟨_, rfl, (sendCommand_drives (setposByte s.par.codes line col) s).setAspace .ddram⟩
  | display | nodisplay | cursor | nocursor | blink | noblink => exact ⟨_, rfl, updateCtrl_drives _ s⟩
  | scrollLeft | scrollRight => exact ⟨_, rfl, sendCommand_drives _ s⟩
  | leftToRight | rightToLeft | autoscroll | noautoscroll => exact ⟨_, rfl, updateEntry_drives _ s⟩
  | write c => exact ⟨_, rfl, writeChar_drives c s⟩
  | backlight => exact ⟨_, rfl, writeBacklight_drives true s⟩
  | nobacklight => exact ⟨_, rfl, writeBacklight_drives false s⟩
  | drawHgraph | drawVgraph => exact ⟨_, rfl, Drives.refl s⟩

/-! ## What a step does -/

/-- The request whose rule a job performs: a character of PRINTSTR executes as the body of WRITE (R203). -/
def Job.instr : Job → Instr
  | .request i => i
  | .printstrChar c => .write c

theorem execJob_eq_exec (job : Job) (s : State) : execJob job s = exec job.instr s := by
  cases job <;> rfl

/-- In `EXEC` a step completes the request and sets RX to `ret`. -/
theorem step_exec_completes {s t : State} {job : Job} {ret : Ret} (hrx : s.rx = .exec job ret) (h : step s = .next t) :
    ∃ u, t = setRx (rxOf ret) u ∧ Drives (registersAfter s job.instr) u (requestOuts s job.instr) := by
  obtain ⟨u, hu, hdrives⟩ := exec_completes job.instr s
  rw [step_exec hrx, execJob_eq_exec, hu] at h
  cases h
  exact ⟨u, rfl, hdrives⟩

/-- The decoder's own transitions write RX, and of the sticky bits at most ILLOP and PREINIT (R95, R202, R244). -/
def DecoderMove (s t : State) : Prop :=
  ∃ (rx : Rx) (illop preinit : Bool), t = { s with
    rx := rx
    faults := { s.faults with illop := s.faults.illop || illop, preinit := s.faults.preinit || preinit } }

theorem setRx_decoderMove (rx : Rx) (s : State) : DecoderMove s (setRx rx s) :=
  ⟨rx, false, false, by simp [setRx]⟩

theorem enterExec_decoderMove {bytes : List Byte} {s t : State} (h : enterExec bytes s = .next t) : DecoderMove s t := by
  obtain ⟨i, rfl⟩ := enterExec_next h
  exact setRx_decoderMove _ s

theorem takeOpcode_decoderMove {b : Byte} {s t : State} (h : takeOpcode b s = .next t) : DecoderMove s t := by
  unfold takeOpcode at h
  split_ifs at h
  · cases h; exact ⟨s.rx, true, false, by simp [raise, markFault]⟩
  · cases h; exact ⟨.stream, false, decide (s.metaState = .uninit), by simp [writeChars, preinitCheck_eq, setRx]⟩
  · exact enterExec_decoderMove h
  · cases h; exact setRx_decoderMove _ s

theorem takeOperand_decoderMove {op b : Byte} {buf : List Byte} {k : Nat} {s t : State}
    (h : takeOperand op buf k b s = .next t) : DecoderMove s t := by
  unfold takeOperand at h
  split_ifs at h
  · exact enterExec_decoderMove h
  · cases h; exact setRx_decoderMove _ s

theorem takeStream_decoderMove {b : Byte} {s t : State} (h : takeStream b s = .next t) : DecoderMove s t := by
  unfold takeStream at h
  split_ifs at h <;> cases h <;> exact setRx_decoderMove _ s

/-- Taking a byte, or waiting for one. -/
theorem takeByte_decoderMove {take : Byte → State → Host.Outcome State Fault Refusal} {s t : State}
    (htake : ∀ {b : Byte} {u : State}, take b u = .next t → DecoderMove u t)
    (h : takeByte take s = .next t) : DecoderMove (setReq s.req.tail s) t := by
  unfold takeByte at h
  split at h
  · next hreq =>
    cases h
    exact ⟨s.rx, false, false, by cases s; simp_all [setReq]⟩
  · next b rest hreq =>
    rw [hreq]
    exact htake h

/-- Every step is a decoder move on the state without the next byte, or executes a request (R34, R95). -/
theorem step_cases {s t : State} (h : step s = .next t) :
    (busy s = false ∧ DecoderMove (setReq s.req.tail s) t) ∨
    ∃ job ret u, s.rx = .exec job ret ∧ t = setRx (rxOf ret) u ∧
      Drives (registersAfter s job.instr) u (requestOuts s job.instr) := by
  cases hrx : s.rx with
  | idle =>
    simp only [step, sequencerStep, hrx] at h
    exact .inl ⟨by rw [busy, hrx], takeByte_decoderMove takeOpcode_decoderMove h⟩
  | collect op buf k =>
    simp only [step, sequencerStep, hrx] at h
    exact .inl ⟨by rw [busy, hrx], takeByte_decoderMove takeOperand_decoderMove h⟩
  | stream =>
    simp only [step, sequencerStep, hrx] at h
    exact .inl ⟨by rw [busy, hrx], takeByte_decoderMove takeStream_decoderMove h⟩
  | exec job ret =>
    obtain ⟨u, hu⟩ := step_exec_completes hrx h
    exact .inr ⟨job, ret, u, rfl, hu⟩

/-! ## STATUS -/

theorem getLsbD_bitAt (b : Bool) : ∀ n < 8, ∀ k < 8, (bitAt n b).getLsbD k = (b && decide (n = k)) := by
  cases b <;> decide

theorem status_bits (s : State) :
    s.status.getLsbD 0 = busy s ∧ s.status.getLsbD 1 = oper s ∧
    s.status.getLsbD 2 = s.faults.buserr ∧ s.status.getLsbD 3 = s.faults.illop ∧ s.status.getLsbD 4 = s.faults.preinit ∧
    s.status.getLsbD 5 = s.faults.reinit ∧ s.status.getLsbD 6 = s.faults.cgstale ∧ s.status.getLsbD 7 = false := by
  simp [State.status, getLsbD_bitAt, -BitVec.getLsbD_eq_getElem]

theorem busy_iff (s : State) : busy s = true ↔ ∃ job ret, s.rx = .exec job ret := by
  unfold busy
  split
  · next job ret h => simp [h]
  · next h => simpa using h

/-- Settles O34: each bit of STATUS is the one view or sticky bit that R32 puts there. -/
theorem statusBitsShowState : Obligations.StatusBitsShowState := by
  intro s
  obtain ⟨h0, h1, hfaults⟩ := status_bits s
  exact ⟨by rw [h0, busy_iff], by rw [h1, oper, decide_eq_true_iff], hfaults⟩

/-- Settles O11: a step that executes leaves the port, and every other takes its first byte (`step_cases`). -/
theorem bytesWaitWhileExecuting : Obligations.BytesWaitWhileExecuting := by
  intro s t h
  rw [(status_bits s).1]
  rcases step_cases h with ⟨hbusy, rx, illop, preinit, rfl⟩ | ⟨job, ret, u, hrx, rfl, hdrives⟩
  · simp [hbusy]
  · have hbusy : busy s = true := (busy_iff s).mpr ⟨job, ret, hrx⟩
    simp [hbusy, hdrives.kept.req, registersAfter]

/-! ## Sticky bits -/

/-- Every sticky bit of `f` is set in `g` too. -/
structure Faults.Within (f g : Faults) : Prop where
  buserr  : f.buserr = true → g.buserr = true
  illop   : f.illop = true → g.illop = true
  preinit : f.preinit = true → g.preinit = true
  reinit  : f.reinit = true → g.reinit = true
  cgstale : f.cgstale = true → g.cgstale = true

theorem faultsAfter_within (s : State) (i : Instr) : s.faults.Within (faultsAfter s i) := by
  unfold faultsAfter preinitMark
  split <;> constructor <;> intro h <;> simp [h]

theorem step_faults_within {s t : State} (h : step s = .next t) : s.faults.Within t.faults := by
  rcases step_cases h with ⟨-, rx, illop, preinit, rfl⟩ | ⟨job, ret, u, -, rfl, hdrives⟩
  · constructor <;> intro h <;> simp [h]
  · have hi := faultsAfter_within s job.instr
    have hk := hdrives.kept
    obtain ⟨new, -, -, hbuserr⟩ := hdrives.tr_buserr
    exact {
      buserr := fun h => by simp [hbuserr, registersAfter, hi.buserr h]
      illop := fun h => hk.illop.trans (hi.illop h)
      preinit := fun h => hk.preinit.trans (hi.preinit h)
      reinit := fun h => hk.reinit.trans (hi.reinit h)
      cgstale := fun h => hk.cgstale.trans (hi.cgstale h) }

/-- Settles O33: no step clears a sticky bit (`step_faults_within`), and STATUS shows them in bits 2 to 6. -/
theorem stickyBitsSurviveEveryStep : Obligations.StickyBitsSurviveEveryStep := by
  intro s t h n hlo hhi
  have hwithin := step_faults_within h
  obtain ⟨-, -, hs2, hs3, hs4, hs5, hs6, -⟩ := status_bits s
  obtain ⟨-, -, ht2, ht3, ht4, ht5, ht6, -⟩ := status_bits t
  interval_cases n
  · rw [hs2, ht2]; exact hwithin.buserr
  · rw [hs3, ht3]; exact hwithin.illop
  · rw [hs4, ht4]; exact hwithin.preinit
  · rw [hs5, ht5]; exact hwithin.reinit
  · rw [hs6, ht6]; exact hwithin.cgstale

/-! ## ASPACE, META, the configuration and the trace -/

/-- Settles O35: every request completes, with ASPACE as `registersAfter` has it. -/
theorem requestsTrackAddressSpace : Obligations.RequestsTrackAddressSpace := by
  intro i s
  obtain ⟨t, ht, hdrives⟩ := exec_completes i s
  exact ⟨t, ht, hdrives.kept.aspace⟩

theorem metaAfter_of_ne_init {s : State} {i : Instr} (h : i ≠ .init) : metaAfter s i = s.metaState := by
  cases i with
  | init => exact absurd rfl h
  | _ => rfl

theorem step_metaState {s t : State} (h : step s = .next t) :
    t.metaState = s.metaState ∨ ((∃ ret, s.rx = .exec (.request .init) ret) ∧ t.metaState = .oper) := by
  rcases step_cases h with ⟨-, rx, illop, preinit, rfl⟩ | ⟨job, ret, u, hrx, rfl, hdrives⟩
  · exact .inl rfl
  · have hm : u.metaState = metaAfter s job.instr := hdrives.kept.metaState
    by_cases hi : job.instr = .init
    · cases job with
      | request i =>
        cases hi
        exact .inr ⟨⟨ret, hrx⟩, hm⟩
      | printstrChar c => cases hi
    · exact .inl (hm.trans (metaAfter_of_ne_init hi))

/-- Settles O36: `metaAfter` for a request, `step_metaState` for a step. -/
theorem onlyInitLeavesUninit : Obligations.OnlyInitLeavesUninit := by
  refine ⟨fun i s t h => ?_, fun s t h hne => (step_metaState h).resolve_left hne, fun s t h hoper => ?_⟩
  · obtain ⟨u, hu, hdrives⟩ := exec_completes i s
    cases hu.symm.trans h
    have hm : t.metaState = metaAfter s i := hdrives.kept.metaState
    split_ifs with hi
    · rw [hm, hi]; rfl
    · rw [hm, metaAfter_of_ne_init hi]
  · rcases step_metaState h with hm | ⟨-, hm⟩
    · rw [hm, hoper]
    · exact hm

/-- Settles O37: neither a decoder move nor a request writes them. -/
theorem configurationIsReadOnly : Obligations.ConfigurationIsReadOnly := by
  intro s t h
  rcases step_cases h with ⟨-, rx, illop, preinit, rfl⟩ | ⟨job, ret, u, -, rfl, hdrives⟩
  · exact ⟨rfl, rfl, rfl, rfl⟩
  · have hk := hdrives.kept
    exact ⟨hk.devAddr, hk.lines, hk.cols, hk.par⟩

/-- Settles O40: a decoder move leaves the trace, and a request appends its events. -/
theorem traceOnlyGrows : Obligations.TraceOnlyGrows := by
  intro s t h
  rcases step_cases h with ⟨-, rx, illop, preinit, rfl⟩ | ⟨job, ret, u, -, rfl, hdrives⟩
  · exact List.prefix_rfl
  · obtain ⟨new, -, htr, -⟩ := hdrives.tr_buserr
    exact ⟨new, htr.symm⟩

/-! ## The expander -/

theorem expAfter_append (before : Option Byte) (tr new : List Event) :
    expAfter before (tr ++ new) = expAfter (expAfter before tr) new := by
  induction before, tr using expAfter.induct with
  | case1 => rfl
  | case2 _ _ _ _ ih | case3 _ _ _ _ ih | case4 _ _ _ ih => exact ih

theorem outputsAfter_append (before : Option Byte) (tr new : List Event) :
    outputsAfter before (tr ++ new) = outputsAfter (outputsAfter before tr) new := by
  induction before, tr using outputsAfter.induct with
  | case1 => rfl
  | case2 _ _ _ _ ih | case3 _ _ _ _ ih | case4 _ _ _ ih => exact ih

/-- Settles O45: the write is the last event of the trace, and its answer decides what it makes of EXP and the outputs. -/
theorem expanderHoldsLastAcknowledgedByte : Obligations.ExpanderHoldsLastAcknowledgedByte := by
  intro v s
  simp only [State.exp, State.outputs, busWrite_tr, expAfter_append, outputsAfter_append]
  refine ⟨fun hack => ?_, fun hnack => ?_⟩
  · rw [hack]; exact ⟨rfl, rfl⟩
  · rw [hnack]; exact ⟨rfl, rfl⟩

/-! ## The geometry: no operation on the bus reads LINES or COLS -/

/-- The state with another geometry (R24). -/
def withGeometry (l c : Byte) (s : State) : State := { s with lines := l, cols := c }

section
variable (l c : Byte) (s : State)

theorem withGeometry_par : (withGeometry l c s).par = s.par := rfl

theorem setMeta_withGeometry (v : MetaState) : setMeta v (withGeometry l c s) = withGeometry l c (setMeta v s) := rfl

theorem setAspace_withGeometry (v : Aspace) : setAspace v (withGeometry l c s) = withGeometry l c (setAspace v s) := rfl

theorem preinitCheck_withGeometry : preinitCheck (withGeometry l c s) = withGeometry l c (preinitCheck s) := by
  rw [preinitCheck_eq, preinitCheck_eq]; rfl

theorem reinitCheck_withGeometry : reinitCheck (withGeometry l c s) = withGeometry l c (reinitCheck s) := by
  rw [reinitCheck_eq, reinitCheck_eq]; rfl

theorem cgstaleCheck_withGeometry : cgstaleCheck (withGeometry l c s) = withGeometry l c (cgstaleCheck s) := by
  rw [cgstaleCheck_eq, cgstaleCheck_eq]; rfl

theorem takeAnswer_withGeometry : takeAnswer (withGeometry l c s) = withGeometry l c (takeAnswer s) := by
  unfold takeAnswer
  rw [show (withGeometry l c s).busIn = s.busIn from rfl]
  cases s.busIn <;> rfl

theorem expWrite_withGeometry (v : Byte) : expWrite v (withGeometry l c s) = withGeometry l c (expWrite v s) := by
  have hwrite (a : DevAddr) (b : Byte) : busWrite a b (withGeometry l c s) = withGeometry l c (busWrite a b s) := by
    rw [busWrite, takeAnswer_withGeometry]; rfl
  have hanswer : nextAnswer (withGeometry l c s) = nextAnswer s := rfl
  simp only [expWrite, hwrite, hanswer]
  split <;> rfl

theorem write4_withGeometry (v : Byte) : write4 v (withGeometry l c s) = withGeometry l c (write4 v s) := by
  have hhigh := expWrite_withGeometry l c s (v ||| s.par.enMask)
  have hlow := expWrite_withGeometry l c (delay s.par.tEn (expWrite (v ||| s.par.enMask) s)) (v &&& ~~~s.par.enMask)
  unfold write4
  rw [withGeometry_par, hhigh]
  exact congrArg (delay s.par.tCmd) hlow

theorem send_withGeometry (v : Byte) (m : Mode) : send v m (withGeometry l c s) = withGeometry l c (send v m s) := by
  rw [send, write4_withGeometry, write4_withGeometry]
  rfl

theorem sendAll_withGeometry (m : Mode) (vs : List Byte) :
    sendAll m vs (withGeometry l c s) = withGeometry l c (sendAll m vs s) := by
  induction vs generalizing s with
  | nil => rfl
  | cons v vs ih => rw [sendAll, send_withGeometry, ih, sendAll]

theorem recover_withGeometry (wait : Nat) : recover wait (withGeometry l c s) = withGeometry l c (recover wait s) :=
  congrArg (delay wait) (write4_withGeometry l c s _)

theorem recovery_withGeometry : recovery (withGeometry l c s) = withGeometry l c (recovery s) := by
  unfold recovery
  rw [withGeometry_par, recover_withGeometry, recover_withGeometry, recover_withGeometry,
    write4_withGeometry]

theorem writeFunc_withGeometry (v : Byte) : writeFunc v (withGeometry l c s) = withGeometry l c (writeFunc v s) :=
  send_withGeometry l c (setFunc v s) _ _

theorem writeCtrl_withGeometry (v : Byte) : writeCtrl v (withGeometry l c s) = withGeometry l c (writeCtrl v s) :=
  send_withGeometry l c (setCtrl v s) _ _

theorem writeEntry_withGeometry (v : Byte) : writeEntry v (withGeometry l c s) = withGeometry l c (writeEntry v s) :=
  send_withGeometry l c (setEntry v s) _ _

theorem clearDisplay_withGeometry : clearDisplay (withGeometry l c s) = withGeometry l c (clearDisplay s) := by
  rw [clearDisplay, send_withGeometry]; rfl

theorem sendCommand_withGeometry (v : Byte) :
    sendCommand v (withGeometry l c s) = withGeometry l c (sendCommand v s) := by
  rw [sendCommand, preinitCheck_withGeometry, send_withGeometry, sendCommand]

theorem updateCtrl_withGeometry (f : Byte → Byte) :
    updateCtrl f (withGeometry l c s) = withGeometry l c (updateCtrl f s) := by
  rw [updateCtrl, preinitCheck_withGeometry, writeCtrl_withGeometry]; rfl

theorem updateEntry_withGeometry (f : Byte → Byte) :
    updateEntry f (withGeometry l c s) = withGeometry l c (updateEntry f s) := by
  rw [updateEntry, preinitCheck_withGeometry, writeEntry_withGeometry]; rfl

theorem writeBacklight_withGeometry (on : Bool) :
    writeBacklight on (withGeometry l c s) = withGeometry l c (writeBacklight on s) := by
  rw [writeBacklight, preinitCheck_withGeometry]
  exact expWrite_withGeometry l c (setBl on (preinitCheck s)) 0x00

theorem writeChar_withGeometry (v : Byte) : writeChar v (withGeometry l c s) = withGeometry l c (writeChar v s) := by
  rw [writeChar, preinitCheck_withGeometry, cgstaleCheck_withGeometry, send_withGeometry, writeChar]

theorem writeChars_withGeometry (cs : List Byte) :
    writeChars cs (withGeometry l c s) = withGeometry l c (writeChars cs s) := by
  induction cs generalizing s with
  | nil => rfl
  | cons v cs ih => rw [writeChars, writeChar_withGeometry, ih, writeChars]

theorem execInit_withCols : ∃ t, execInit s = .next t ∧
    execInit (withGeometry s.lines c s) = .next (withGeometry s.lines c t) := by
  refine ⟨_, rfl, ?_⟩
  simp only [execInit, reinitCheck_withGeometry, recovery_withGeometry, writeFunc_withGeometry,
    writeCtrl_withGeometry, writeEntry_withGeometry, clearDisplay_withGeometry, setMeta_withGeometry, withGeometry_par]
  rfl

/-- A request does the same whatever the geometry, and leaves it; but INIT reads LINES (R25). -/
theorem exec_withGeometry {i : Instr} (hi : i = .init → l = s.lines) :
    ∃ t, exec i s = .next t ∧ exec i (withGeometry l c s) = .next (withGeometry l c t) := by
  cases i with
  | init => rw [hi rfl]; exact execInit_withCols c s
  | clear =>
    refine ⟨_, rfl, congrArg Host.Outcome.next ?_⟩
    rw [preinitCheck_withGeometry, clearDisplay_withGeometry]
  | home =>
    refine ⟨_, rfl, congrArg Host.Outcome.next ?_⟩
    rw [sendCommand_withGeometry, withGeometry_par]
    rfl
  | setpos line col =>
    refine ⟨_, rfl, congrArg Host.Outcome.next ?_⟩
    rw [sendCommand_withGeometry, setAspace_withGeometry, withGeometry_par]
  | display | nodisplay | cursor | nocursor | blink | noblink =>
    exact ⟨_, rfl, congrArg Host.Outcome.next (updateCtrl_withGeometry l c s _)⟩
  | scrollLeft | scrollRight => exact ⟨_, rfl, congrArg Host.Outcome.next (sendCommand_withGeometry l c s _)⟩
  | leftToRight | rightToLeft | autoscroll | noautoscroll =>
    exact ⟨_, rfl, congrArg Host.Outcome.next (updateEntry_withGeometry l c s _)⟩
  | createchar slot glyph =>
    refine ⟨_, rfl, congrArg Host.Outcome.next ?_⟩
    rw [preinitCheck_withGeometry, send_withGeometry, sendAll_withGeometry, setAspace_withGeometry, withGeometry_par]
  | backlight => exact ⟨_, rfl, congrArg Host.Outcome.next (writeBacklight_withGeometry l c s true)⟩
  | nobacklight => exact ⟨_, rfl, congrArg Host.Outcome.next (writeBacklight_withGeometry l c s false)⟩
  | write v => exact ⟨_, rfl, congrArg Host.Outcome.next (writeChar_withGeometry l c s v)⟩
  | printstr text =>
    refine ⟨_, rfl, congrArg Host.Outcome.next ?_⟩
    rw [preinitCheck_withGeometry, writeChars_withGeometry]
  | drawHgraph | drawVgraph => exact ⟨_, rfl, rfl⟩

end

/-- Settles O38: another COLS with the same LINES, then another LINES with the same COLS (`exec_withGeometry`). -/
theorem geometryIsReadOnlyByInit : Obligations.GeometryIsReadOnlyByInit := by
  intro i s lines cols
  obtain ⟨t, ht, hdrives⟩ := exec_completes i s
  have hlines : t.lines = s.lines := hdrives.kept.lines
  have hcols : t.cols = s.cols := hdrives.kept.cols
  refine ⟨t, ht, ?_, fun hi => ?_⟩
  · obtain ⟨u, hu, hexec⟩ := exec_withGeometry s.lines cols s (i := i) fun _ => rfl
    cases hu.symm.trans ht
    have hres : withGeometry s.lines cols t = { t with cols := cols } := by rw [withGeometry, ← hlines]
    exact hexec.trans (congrArg Host.Outcome.next hres)
  · obtain ⟨u, hu, hexec⟩ := exec_withGeometry lines s.cols s (i := i) fun h => absurd h hi
    cases hu.symm.trans ht
    have hres : withGeometry lines s.cols t = { t with lines := lines } := by rw [withGeometry, ← hcols]
    exact hexec.trans (congrArg Host.Outcome.next hres)

/-! ## A fixed-length request runs from its bytes -/

theorem opcodeFits (i : Instr) : Laws.OpcodeFits.Statement i := by
  cases i with
  | printstr text => exact Laws.OpcodeFits.printstr text
  | _ => exact ⟨rfl, rfl, fun _ => rfl⟩

theorem opcode_ne_opPrintstr {i : Instr} (hi : ∀ text, i ≠ .printstr text) : i.opcode ≠ opPrintstr := by
  cases i with
  | printstr text => exact absurd rfl (hi text)
  | _ => simp [Instr.opcode, opPrintstr]

theorem decode_encode_fixed {i : Instr} (hi : ∀ text, i ≠ .printstr text) : decode (encode i) = .ok (i, []) := by
  cases i with
  | printstr text => exact absurd rfl (hi text)
  | _ => rfl

theorem enterExec_of_decode {bytes : List Byte} {i : Instr} (h : decode bytes = .ok (i, [])) (s : State) :
    enterExec bytes s = .next (setRx (.exec (.request i) .idle) s) := by
  rw [enterExec, h]

/-- The operand bytes still missing complete the request. -/
theorem run_collect {op : Byte} {i : Instr} {rest : List Byte} (bs : List Byte) (hbs : bs ≠ []) {buf : List Byte}
    {s : State} (hd : decode (op :: (buf ++ bs)) = .ok (i, [])) (hrx : s.rx = .collect op buf bs.length)
    (hreq : s.req = bs ++ rest) :
    Sys2Proof.core.run bs.length s = .next (setRx (.exec (.request i) .idle) (setReq rest s)) := by
  induction bs generalizing buf s with
  | nil => exact absurd rfl hbs
  | cons b bs ih =>
    have hstep := step_collect hrx hreq
    cases bs with
    | nil =>
      rw [List.length_singleton, run_one, hstep]
      exact enterExec_of_decode hd _
    | cons b' bs' =>
      have hk : (b :: b' :: bs').length ≠ 1 := by simp
      rw [takeOperand, if_neg hk] at hstep
      rw [List.length_cons, run_succ hstep]
      refine ih (List.cons_ne_nil _ _) ?_ rfl rfl
      rwa [List.append_assoc]

/-- From `IDLE` the bytes of a fixed-length request bring the decoder to `EXEC` of it. -/
theorem run_encode {i : Instr} (hi : ∀ text, i ≠ .printstr text) {rest : List Byte} {s : State} (hrx : s.rx = .idle)
    (hreq : s.req = encode i ++ rest) :
    Sys2Proof.core.run (encode i).length s = .next (setRx (.exec (.request i) .idle) (setReq rest s)) := by
  obtain ⟨-, hreserved, hlength⟩ := opcodeFits i
  have hne := opcode_ne_opPrintstr hi
  have hlen : i.operands.length + 1 = requestLength i.opcode := hlength hne
  have hdecode : decode (i.opcode :: i.operands) = .ok (i, []) := decode_encode_fixed hi
  have hstep := step_idle hrx hreq
  rw [takeOpcode, hreserved, if_neg Bool.false_ne_true, if_neg hne, ← hlen] at hstep
  rw [encode, List.length_cons]
  by_cases hops : i.operands = []
  · rw [hops] at hstep hdecode ⊢
    exact (run_one s).trans (hstep.trans (enterExec_of_decode hdecode _))
  · have hpos : i.operands.length + 1 ≠ 1 := by simpa using hops
    rw [if_neg hpos] at hstep
    rw [run_succ hstep]
    exact run_collect i.operands hops hdecode rfl rfl

theorem coreRun_then_step (M : Host.Core) {n : Nat} {s t : M.State} (h : M.run n s = .next t) :
    M.run (n + 1) s = M.step t := by
  induction n generalizing s with
  | zero => cases h; exact coreRun_one M _
  | succ n ih =>
    cases hs : M.step s with
    | next u =>
      rw [coreRun_succ M hs] at h ⊢
      exact ih h
    | fault r => rw [Host.Core.run, hs] at h; cases h
    | refused r => rw [Host.Core.run, hs] at h; cases h

theorem run_then_step {n : Nat} {s t : State} (h : Sys2Proof.core.run n s = .next t) :
    Sys2Proof.core.run (n + 1) s = step t :=
  coreRun_then_step Sys2Proof.core h

theorem withRx_withRx (v w : Rx) (o : Host.Outcome State Fault Refusal) : withRx v (withRx w o) = withRx v o := by
  cases o <;> rfl

/-- Settles O7: the bytes lead to `EXEC` (`run_encode`), and the request does not read RX (`exec_setRx`). -/
theorem fixedLengthRequestRunsFromItsBytes : Obligations.FixedLengthRequestRunsFromItsBytes := by
  intro i rest s hi hrx hreq
  rw [run_then_step (run_encode hi hrx hreq), step_exec rfl]
  exact (congrArg (withRx .idle) (exec_setRx i _ _)).trans (withRx_withRx _ _ _)

/-! ## The decoder state stays proper (R95) -/

/-- What the decoder reads after an opcode byte is a request of that opcode; six opcodes can be truncated, and the rest
are reserved. -/
theorem decodeAfter_opcode {op : Byte} {bytes rest : List Byte} {i : Instr} (h : decodeAfter op bytes = .ok (i, rest)) :
    i.opcode = op := by
  have hop {n : Nat} (hn : op.toNat = n) : BitVec.ofNat 8 n = op := BitVec.eq_of_toNat_eq (by simp [← hn])
  unfold decodeAfter at h
  split at h
  case h_4 | h_17 | h_20 | h_21 | h_22 | h_23 =>
    rename_i hn
    split at h
    · cases h; exact hop hn
    · cases h
  case h_24 => cases h
  all_goals cases h; exact hop ‹_›

theorem wf_of_opcode_ne {i : Instr} (h : i.opcode ≠ opPrintstr) : i.wf = true := by
  cases i with
  | printstr text => exact absurd rfl h
  | _ => rfl

theorem requestLength_bounds (op : Byte) : 1 ≤ requestLength op ∧ requestLength op ≤ 10 := by
  unfold requestLength
  split <;> decide

theorem enterExec_rxOk {op : Byte} {ops : List Byte} {s t : State} (hop : op ≠ opPrintstr)
    (h : enterExec (op :: ops) s = .next t) : RxOk t := by
  unfold enterExec at h
  split at h
  · next i hdecode =>
    cases h
    have hi : i.opcode ≠ opPrintstr := by rwa [decodeAfter_opcode hdecode]
    exact ⟨wf_of_opcode_ne hi, hi, rfl⟩
  · cases h

theorem takeOpcode_rxOk {b : Byte} {s t : State} (hrx : s.rx = .idle) (h : takeOpcode b s = .next t) : RxOk t := by
  unfold takeOpcode at h
  split_ifs at h with hreserved hprintstr hone
  · cases h; simp [RxOk, hrx]
  · cases h; trivial
  · exact enterExec_rxOk hprintstr h
  · cases h
    obtain ⟨hpos, -⟩ := requestLength_bounds b
    have hk : 1 ≤ requestLength b - 1 := by omega
    have hsum : 0 + 1 + (requestLength b - 1) = requestLength b := by omega
    exact ⟨by simpa using hreserved, hprintstr, hk, hsum⟩

theorem takeOperand_rxOk {op b : Byte} {buf : List Byte} {k : Nat} {s t : State} (hok : RxOk s)
    (hrx : s.rx = .collect op buf k) (h : takeOperand op buf k b s = .next t) : RxOk t := by
  simp only [RxOk, hrx] at hok
  obtain ⟨hreserved, hop, hk, hsum⟩ := hok
  unfold takeOperand at h
  split_ifs at h with hone
  · exact enterExec_rxOk hop h
  · cases h
    have hk' : 1 ≤ k - 1 := by omega
    have hsum' : (buf ++ [b]).length + 1 + (k - 1) = requestLength op := by
      rw [List.length_append, List.length_singleton]; omega
    exact ⟨hreserved, hop, hk', hsum'⟩

theorem takeStream_rxOk {b : Byte} {s t : State} (h : takeStream b s = .next t) : RxOk t := by
  unfold takeStream at h
  split_ifs at h with hb
  · cases h; trivial
  · cases h; exact ⟨hb, rfl⟩

theorem takeByte_rxOk {take : Byte → State → Host.Outcome State Fault Refusal} {s t : State} (hok : RxOk s)
    (htake : ∀ {b : Byte} {rest : List Byte}, take b (setReq rest s) = .next t → RxOk t)
    (h : takeByte take s = .next t) : RxOk t := by
  unfold takeByte at h
  split at h
  · cases h; exact hok
  · exact htake h

theorem step_rxOk {s t : State} (hok : RxOk s) (h : step s = .next t) : RxOk t := by
  cases hrx : s.rx with
  | idle =>
    simp only [step, sequencerStep, hrx] at h
    exact takeByte_rxOk hok (takeOpcode_rxOk hrx) h
  | collect op buf k =>
    simp only [step, sequencerStep, hrx] at h
    exact takeByte_rxOk hok (fun {_ rest} => takeOperand_rxOk (s := setReq rest s) hok hrx) h
  | stream =>
    simp only [step, sequencerStep, hrx] at h
    exact takeByte_rxOk hok takeStream_rxOk h
  | exec job ret =>
    obtain ⟨u, rfl, -⟩ := step_exec_completes hrx h
    cases ret <;> trivial

/-! ## The reserved bits stay 0 (R30) -/

theorem setBits_and_eq_zero {mask flag r : Byte} (hf : flag &&& mask = 0) (hr : r &&& mask = 0) :
    setBits flag r &&& mask = 0 := by
  rw [setBits, BitVec.and_or_distrib_right, hr, hf]; rfl

theorem clearBits_and_eq_zero {mask r : Byte} (flag : Byte) (hr : r &&& mask = 0) : clearBits flag r &&& mask = 0 := by
  rw [clearBits, BitVec.and_assoc, BitVec.and_comm (~~~flag), ← BitVec.and_assoc, hr]
  exact BitVec.zero_and

theorem baselineCtrl_reserved (p : Params) : baselineCtrl p &&& 0xF8 = 0 := by
  unfold baselineCtrl
  generalize p.initCtrl = v
  revert v; decide

theorem baselineEntry_reserved (p : Params) : baselineEntry p &&& 0xFC = 0 := by
  unfold baselineEntry
  generalize p.initEntry = v
  revert v; decide

theorem computedFunc_coded {c : Codes} (hc : c = Config.codes) (lines : Byte) :
    computedFunc c lines = if 2 ≤ lines.toNat then 0x08 else 0x00 := by
  rw [computedFunc, hc]
  split <;> rfl

theorem ctrlAfter_reserved {s : State} (hc : s.par.coded) (h : s.ctrl &&& 0xF8 = 0) (i : Instr) :
    ctrlAfter s i &&& 0xF8 = 0 := by
  cases i with
  | init => exact baselineCtrl_reserved s.par
  | display | cursor | blink => exact setBits_and_eq_zero (by rw [hc]; decide) h
  | nodisplay | nocursor | noblink => exact clearBits_and_eq_zero _ h
  | _ => exact h

theorem entryAfter_reserved {s : State} (hc : s.par.coded) (h : s.entry &&& 0xFC = 0) (i : Instr) :
    entryAfter s i &&& 0xFC = 0 := by
  cases i with
  | init => exact baselineEntry_reserved s.par
  | leftToRight | autoscroll => exact setBits_and_eq_zero (by rw [hc]; decide) h
  | rightToLeft | noautoscroll => exact clearBits_and_eq_zero _ h
  | _ => exact h

theorem funcAfter_reserved {s : State} (hc : s.par.coded) (h : s.func &&& 0xF7 = 0) (i : Instr) :
    funcAfter s i &&& 0xF7 = 0 := by
  cases i with
  | init =>
    rw [funcAfter, computedFunc_coded hc]
    split <;> decide
  | _ => exact h

theorem step_reservedZero {s t : State} (hc : s.par.coded) (hr : ReservedZero s) (h : step s = .next t) :
    ReservedZero t := by
  rcases step_cases h with ⟨-, rx, illop, preinit, rfl⟩ | ⟨job, ret, u, -, rfl, hdrives⟩
  · exact hr
  · obtain ⟨hfunc, hctrl, hentry⟩ := hr
    have hk := hdrives.kept
    refine ⟨?_, ?_, ?_⟩
    · rw [setRx_func, hk.func]; exact funcAfter_reserved hc hfunc job.instr
    · rw [setRx_ctrl, hk.ctrl]; exact ctrlAfter_reserved hc hctrl job.instr
    · rw [setRx_entry, hk.entry]; exact entryAfter_reserved hc hentry job.instr

/-! ## The flags mirror what the controller was last told (R38) -/

/-- The last byte of a kind among those sent. -/
def lastOf (p : Mode × Byte → Bool) (sent : List (Mode × Byte)) : Option Byte :=
  ((sent.filter p).getLast?).map Prod.snd

theorem lastOf_append (p : Mode × Byte → Bool) (sent new : List (Mode × Byte)) :
    lastOf p (sent ++ new) = (lastOf p new).or (lastOf p sent) := by
  rw [lastOf, List.filter_append, List.getLast?_append, Option.map_or, lastOf, lastOf]

theorem lastOf_eq_none {p : Mode × Byte → Bool} {sent : List (Mode × Byte)} (h : ∀ x ∈ sent, p x = false) :
    lastOf p sent = none := by
  have hfilter : sent.filter p = [] := List.filter_eq_nil_iff.mpr fun x hx => by simp [h x hx]
  rw [lastOf, hfilter]; rfl

theorem lastOf_singleton {p : Mode × Byte → Bool} {x : Mode × Byte} (h : p x = true) : lastOf p [x] = some x.2 := by
  rw [lastOf, List.filter_cons_of_pos h]; rfl

/-- Among `bytes` the whole register is told after the opcode `op`, or it is not told and does not change. -/
def Told (p : Mode × Byte → Bool) (op before after : Byte) (bytes : List (Mode × Byte)) : Prop :=
  lastOf p bytes = some (op ||| after) ∨ (lastOf p bytes = none ∧ after = before)

theorem Told.lastOf_append {p : Mode × Byte → Bool} {op before after : Byte} {sent bytes : List (Mode × Byte)}
    (h : Told p op before after bytes) (hsent : lastOf p sent = some (op ||| before)) :
    lastOf p (sent ++ bytes) = some (op ||| after) := by
  rw [Machine.lastOf_append]
  rcases h with h | ⟨h, rfl⟩
  · rw [h, Option.some_or]
  · rw [h, Option.none_or, hsent]

theorem isDisplayControl_command (v : Byte) :
    isDisplayControl (.command, v) = decide (8 ≤ v.toNat ∧ v.toNat < 16) := by
  revert v; decide

theorem isEntryMode_command (v : Byte) : isEntryMode (.command, v) = decide (4 ≤ v.toNat ∧ v.toNat < 8) := by
  revert v; decide

/-- Neither a DISPLAYCONTROL nor an ENTRYMODESET byte. -/
def NoFlagByte (x : Mode × Byte) : Prop := isDisplayControl x = false ∧ isEntryMode x = false

theorem noFlagByte_data (v : Byte) : NoFlagByte (.data, v) := ⟨rfl, rfl⟩

theorem noFlagByte_of_bit {v : Byte} {n : Nat} (hn : 4 ≤ n) (h : v.getLsbD n = true) : NoFlagByte (.command, v) := by
  have hge : 2 ^ n ≤ v.toNat := Nat.ge_two_pow_of_testBit h
  have hpow : 2 ^ 4 ≤ 2 ^ n := Nat.pow_le_pow_right (by decide) hn
  have hdc : ¬(8 ≤ v.toNat ∧ v.toNat < 16) := by omega
  have hem : ¬(4 ≤ v.toNat ∧ v.toNat < 8) := by omega
  rw [NoFlagByte, isDisplayControl_command, isEntryMode_command]
  exact ⟨decide_eq_false hdc, decide_eq_false hem⟩

theorem noFlagByte_clear_home : NoFlagByte (.command, Config.codes.clearDisplay) ∧
    NoFlagByte (.command, Config.codes.returnHome) := by
  unfold NoFlagByte; decide

/-- Where CTRL's reserved bits are 0, the DISPLAYCONTROL byte is one, and no ENTRYMODESET byte. -/
theorem displayControlByte_kind {c : Codes} (hc : c = Config.codes) {v : Byte} (h : v &&& 0xF8 = 0) :
    isDisplayControl (.command, displayControlByte c v) = true ∧ isEntryMode (.command, displayControlByte c v) = false := by
  subst hc; revert v; decide

/-- Where ENTRY's reserved bits are 0, the ENTRYMODESET byte is one, and no DISPLAYCONTROL byte. -/
theorem entryModeByte_kind {c : Codes} (hc : c = Config.codes) {v : Byte} (h : v &&& 0xFC = 0) :
    isEntryMode (.command, entryModeByte c v) = true ∧ isDisplayControl (.command, entryModeByte c v) = false := by
  subst hc; revert v; decide

/-- A request that is not INIT and names no flag (R177) sends no flag byte. -/
theorem bytesSent_noFlagByte {s : State} (hc : s.par.coded) {i : Instr} (hinit : i ≠ .init) (hflag : flagEffect i = none)
    {x : Mode × Byte} (hx : x ∈ bytesSent s i) : NoFlagByte x := by
  cases i with
  | init => exact absurd rfl hinit
  | display | nodisplay | cursor | nocursor | blink | noblink | leftToRight | rightToLeft | autoscroll | noautoscroll =>
    cases hflag
  | clear => rw [List.mem_singleton.mp hx, hc]; exact noFlagByte_clear_home.1
  | home => rw [List.mem_singleton.mp hx, hc]; exact noFlagByte_clear_home.2
  | setpos line col =>
    rw [List.mem_singleton.mp hx, hc]
    exact noFlagByte_of_bit (n := 7) (by decide) (by simp [setposByte, Config.codes])
  | scrollLeft | scrollRight =>
    rw [List.mem_singleton.mp hx, hc]
    exact noFlagByte_of_bit (n := 4) (by decide) (by decide)
  | createchar slot glyph =>
    rcases List.mem_cons.mp hx with rfl | hrow
    · rw [hc]
      exact noFlagByte_of_bit (n := 6) (by decide) (by simp [createcharByte, Config.codes])
    · obtain ⟨row, -, rfl⟩ := List.mem_map.mp hrow
      exact noFlagByte_data row
  | write c => rw [List.mem_singleton.mp hx]; exact noFlagByte_data c
  | printstr text =>
    obtain ⟨c, -, rfl⟩ := List.mem_map.mp hx
    exact noFlagByte_data c
  | backlight | nobacklight | drawHgraph | drawVgraph => cases hx

theorem lastOf_bytesSent_init {s : State} (hc : s.par.coded) :
    lastOf isDisplayControl (bytesSent s .init) = some (0x08 ||| ctrlAfter s .init) ∧
    lastOf isEntryMode (bytesSent s .init) = some (0x04 ||| entryAfter s .init) := by
  have ⟨hdd, hde⟩ := displayControlByte_kind hc (baselineCtrl_reserved s.par)
  have ⟨hee, hed⟩ := entryModeByte_kind hc (baselineEntry_reserved s.par)
  have ⟨hfd, hfe⟩ : NoFlagByte (.command, functionSetByte s.par.codes (computedFunc s.par.codes s.lines)) :=
    noFlagByte_of_bit (n := 5) (by decide) (by rw [hc]; simp [functionSetByte, Config.codes])
  have ⟨hcd, hce⟩ : NoFlagByte (.command, s.par.codes.clearDisplay) := by rw [hc]; exact noFlagByte_clear_home.1
  simp only [lastOf, bytesSent, List.filter_cons, hdd, hde, hee, hed, hfd, hfe, hcd, hce]
  rw [displayControlByte, entryModeByte, hc]
  exact ⟨rfl, rfl⟩

/-- A request but INIT tells the controller the whole CTRL or leaves it, and so with ENTRY. -/
theorem flagsAfter_told {s : State} (hc : s.par.coded) (hr : ReservedZero s) {i : Instr} (hinit : i ≠ .init) :
    Told isDisplayControl 0x08 s.ctrl (ctrlAfter s i) (bytesSent s i) ∧
    Told isEntryMode 0x04 s.entry (entryAfter s i) (bytesSent s i) := by
  obtain ⟨-, hctrl, hentry⟩ := hr
  have ⟨hdd, hde⟩ := displayControlByte_kind hc (ctrlAfter_reserved hc hctrl i)
  have ⟨hee, hed⟩ := entryModeByte_kind hc (entryAfter_reserved hc hentry i)
  have hdc : displayControlByte s.par.codes (ctrlAfter s i) = 0x08 ||| ctrlAfter s i := by rw [hc]; rfl
  have hem : entryModeByte s.par.codes (entryAfter s i) = 0x04 ||| entryAfter s i := by rw [hc]; rfl
  have hquiet (hflag : flagEffect i = none) :
      lastOf isDisplayControl (bytesSent s i) = none ∧ lastOf isEntryMode (bytesSent s i) = none :=
    ⟨lastOf_eq_none fun x hx => (bytesSent_noFlagByte hc hinit hflag hx).1,
      lastOf_eq_none fun x hx => (bytesSent_noFlagByte hc hinit hflag hx).2⟩
  cases i with
  | init => exact absurd rfl hinit
  | display | nodisplay | cursor | nocursor | blink | noblink =>
    exact ⟨.inl ((lastOf_singleton hdd).trans (congrArg some hdc)),
      .inr ⟨lastOf_eq_none fun x hx => by rwa [List.mem_singleton.mp hx], rfl⟩⟩
  | leftToRight | rightToLeft | autoscroll | noautoscroll =>
    exact ⟨.inr ⟨lastOf_eq_none fun x hx => by rwa [List.mem_singleton.mp hx], rfl⟩,
      .inl ((lastOf_singleton hee).trans (congrArg some hem))⟩
  | _ => exact ⟨.inr ⟨(hquiet rfl).1, rfl⟩, .inr ⟨(hquiet rfl).2, rfl⟩⟩

/-- `lastDisplayControl` and `lastEntryMode` are `lastOf` the bytes that the monitor has read. -/
theorem flagMirror_iff (s : State) : FlagMirror s ↔ (s.metaState = .oper →
    lastOf isDisplayControl (monitor s.tr).sent = some (0x08 ||| s.ctrl) ∧
    lastOf isEntryMode (monitor s.tr).sent = some (0x04 ||| s.entry)) := Iff.rfl

theorem Drives.flagMirror {s t : State} {i : Instr} {outs : List Out} (hc : s.par.coded) (hr : ReservedZero s)
    (hm : FlagMirror s) (h : Drives (registersAfter s i) t outs)
    (hsent : (monitor t.tr).sent = (monitor s.tr).sent ++ bytesSent s i) : FlagMirror t := by
  have hctrl : t.ctrl = ctrlAfter s i := h.kept.ctrl
  have hentry : t.entry = entryAfter s i := h.kept.entry
  rw [flagMirror_iff] at hm ⊢
  rw [hsent, hctrl, hentry]
  intro hoper
  by_cases hinit : i = .init
  · subst hinit
    obtain ⟨hd, he⟩ := lastOf_bytesSent_init hc
    exact ⟨by rw [lastOf_append, hd, Option.some_or], by rw [lastOf_append, he, Option.some_or]⟩
  · have hmeta : t.metaState = metaAfter s i := h.kept.metaState
    rw [metaAfter_of_ne_init hinit] at hmeta
    obtain ⟨hd, he⟩ := hm (hmeta.symm.trans hoper)
    obtain ⟨htd, hte⟩ := flagsAfter_told hc hr hinit
    exact ⟨htd.lastOf_append hd, hte.lastOf_append he⟩

theorem stepBytes_exec {s : State} {job : Job} {ret : Ret} (hrx : s.rx = .exec job ret) :
    stepBytes s = bytesSent s job.instr := by
  unfold stepBytes
  rw [hrx]
  cases job <;> rfl

theorem step_flagMirror {s t : State} (hinv : Inv s) (h : step s = .next t) : FlagMirror t := by
  rcases step_cases h with ⟨-, rx, illop, preinit, rfl⟩ | ⟨job, ret, u, hrx, rfl, hdrives⟩
  · exact hinv.mirror
  · have htells := step_tells hinv.onProtocol h
    have hmirror : FlagMirror u := hdrives.flagMirror hinv.coded hinv.reserved hinv.mirror (by
      rw [← stepBytes_exec hrx]
      exact htells.sent_eq)
    exact hmirror

/-- Settles O47: the parameters and the protocol by `step_tells`, and the other parts each by its own step lemma. -/
theorem everyStepKeepsInvariant : Obligations.EveryStepKeepsInvariant := by
  intro s t hinv h
  obtain ⟨hwired, hlegal, hcoded, haccepts⟩ := (step_tells hinv.onProtocol h).onProtocol
  exact {
    wired := hwired
    legal := hlegal
    coded := hcoded
    rxOk := step_rxOk hinv.rxOk h
    reserved := step_reservedZero hinv.coded hinv.reserved h
    protocol := haccepts
    mirror := step_flagMirror hinv h }

/-! ## Reachable states -/

theorem resetWith_inv (st : Straps) {p : Params} (hw : p.wired) (hl : p.legal) (hc : p.coded) :
    Inv (State.resetWith st p) where
  wired := hw
  legal := hl
  coded := hc
  rxOk := trivial
  reserved := ⟨BitVec.zero_and, BitVec.zero_and, BitVec.zero_and⟩
  protocol := rfl
  mirror := nofun

/-- The invariant does not read the environment's side. -/
theorem Inv.withEnvironment {s : State} (h : Inv s) (req : List Byte) (busIn : List Ack) (draws : Nat) :
    Inv { s with req := req, busIn := busIn, draws := draws } :=
  ⟨h.wired, h.legal, h.coded, h.rxOk, h.reserved, h.protocol, h.mirror⟩

/-- Once INIT has run, FUNC is what it computes from LINES (R26, R151). -/
def LineMode (s : State) : Prop := s.metaState = .oper → s.func = computedFunc s.par.codes s.lines

theorem step_lineMode {s t : State} (hs : LineMode s) (h : step s = .next t) : LineMode t := by
  rcases step_cases h with ⟨-, rx, illop, preinit, rfl⟩ | ⟨job, ret, u, -, rfl, hdrives⟩
  · exact hs
  · have hk := hdrives.kept
    have hmeta : u.metaState = metaAfter s job.instr := hk.metaState
    intro hoper
    rw [setRx_func, setRx_par, setRx_lines, hk.func, hk.par, hk.lines]
    cases hi : job.instr with
    | init => rfl
    | _ => exact hs (by rw [hi] at hmeta; exact hmeta.symm.trans hoper)

theorem Reachable.inv_lineMode {s : State} (h : Reachable s) : Inv s ∧ LineMode s := by
  induction h with
  | reset st p hw hl hc => exact ⟨resetWith_inv st hw hl hc, nofun⟩
  | step _ hs ih => exact ⟨everyStepKeepsInvariant _ _ ih.1 hs, step_lineMode ih.2 hs⟩
  | submit _ b ih => exact ⟨ih.1.withEnvironment _ _ _, ih.2⟩
  | answer _ a ih => exact ⟨ih.1.withEnvironment _ _ _, ih.2⟩
  | hostReset _ st n ih =>
    exact ⟨(resetWith_inv st ih.1.wired ih.1.legal ih.1.coded).withEnvironment _ _ _, nofun⟩

theorem Reachable.inv {s : State} (h : Reachable s) : Inv s := h.inv_lineMode.1

/-- Settles O50: the reserved bits are 0 by the invariant, and the mask of FUNC is part of the invariant's. -/
theorem reservedFlagBitsStayZero : Obligations.ReservedFlagBitsStayZero := by
  intro s h
  obtain ⟨hfunc, hctrl, hentry⟩ := h.inv.reserved
  refine ⟨?_, hctrl, hentry⟩
  calc s.func &&& 0xE3 = (s.func &&& 0xF7) &&& 0xE3 := by rw [BitVec.and_assoc]; rfl
    _ = 0 := by rw [hfunc]; rfl

/-- Settles O51: DL and F by the invariant, N by `LineMode`. -/
theorem funcHoldsComputedLineMode : Obligations.FuncHoldsComputedLineMode := by
  intro s h
  obtain ⟨hinv, hline⟩ := h.inv_lineMode
  obtain ⟨hfunc, -⟩ := hinv.reserved
  refine ⟨getLsbD_eq_false_of_and_eq_zero hfunc (by decide), getLsbD_eq_false_of_and_eq_zero hfunc (by decide),
    fun hoper => ?_⟩
  rw [hline hoper, computedFunc_coded hinv.coded]
  split_ifs with hlines
  · exact iff_of_true (by decide) hlines
  · exact iff_of_false (by decide) hlines

/-- Settles O53: COLLECT's operands so far and those still missing are fewer than the request's length, at most 10. -/
theorem operandBufferHoldsAtMostNine : Obligations.OperandBufferHoldsAtMostNine := by
  intro s op buf k h hrx
  have hok := h.inv.rxOk
  simp only [RxOk, hrx] at hok
  obtain ⟨-, -, hk, hsum⟩ := hok
  obtain ⟨-, hlength⟩ := requestLength_bounds op
  exact ⟨hk, by omega⟩

/-! ## A changed flag register is sent whole -/

theorem ctrlAfter_sent {s : State} {i : Instr} (h : ctrlAfter s i ≠ s.ctrl) :
    (.command, displayControlByte s.par.codes (ctrlAfter s i)) ∈ bytesSent s i := by
  cases i with
  | init => exact .tail _ (.head _)
  | display | nodisplay | cursor | nocursor | blink | noblink => exact .head _
  | _ => exact absurd rfl h

theorem entryAfter_sent {s : State} {i : Instr} (h : entryAfter s i ≠ s.entry) :
    (.command, entryModeByte s.par.codes (entryAfter s i)) ∈ bytesSent s i := by
  cases i with
  | init => exact .tail _ (.tail _ (.head _))
  | leftToRight | rightToLeft | autoscroll | noautoscroll => exact .head _
  | _ => exact absurd rfl h

theorem bytesOuts_infix_requestOuts {s : State} {i : Instr} (h : bytesSent s i ≠ []) :
    bytesOuts s i <:+: requestOuts s i := by
  cases i with
  | init => exact ⟨_, _, rfl⟩
  | clear | home => exact ⟨[], _, rfl⟩
  | backlight | nobacklight => exact absurd rfl h
  | _ => exact List.infix_rfl

/-- A sent byte's two pulses stand together among the outputs of its request. -/
theorem sendOuts_infix_requestOuts {s : State} {i : Instr} {m : Mode} {v : Byte} (h : (m, v) ∈ bytesSent s i) :
    sendOuts s v m <:+: requestOuts s i := by
  obtain ⟨before, after, hsplit⟩ := List.append_of_mem h
  have hbytes : sendOuts s v m <:+: bytesOuts s i :=
    ⟨before.flatMap fun x => sendOuts s x.2 x.1, after.flatMap fun x => sendOuts s x.2 x.1, by
      rw [bytesOuts, hsplit, List.flatMap_append, List.flatMap_cons, List.append_assoc]⟩
  exact hbytes.trans (bytesOuts_infix_requestOuts (List.ne_nil_of_mem h))

/-- Settles O52: the mirror is part of the invariant, and a register that a request changes is among its bytes. -/
theorem flagsMirrorLastTransmitted : Obligations.FlagsMirrorLastTransmitted := by
  refine ⟨fun s h _ hoper _ => h.inv.mirror hoper, fun i s => ?_⟩
  obtain ⟨t, ht, hdrives⟩ := exec_completes i s
  obtain ⟨new, hnew, htr, -⟩ := hdrives.tr_buserr
  have hctrl : t.ctrl = ctrlAfter s i := hdrives.kept.ctrl
  have hentry : t.entry = entryAfter s i := hdrives.kept.entry
  refine ⟨t, new, ht, htr, ?_, ?_⟩
  · rw [hnew, hctrl]
    exact fun hne => sendOuts_infix_requestOuts (ctrlAfter_sent hne)
  · rw [hnew, hentry]
    exact fun hne => sendOuts_infix_requestOuts (entryAfter_sent hne)

end Sys2Proof.Machine

/-! What a request makes of its memories and of the bus (spec/20_memory.md): the bus's answers reach the trace and BUSERR
only (R67), and two bits of SETPOS's line operand choose its offset (R70). -/

namespace Sys2Proof.Machine

/-! ## The bus's answers (R67) -/

/-- Putting outputs on the bus changes nothing but what the bus's answers may touch. -/
theorem Drives.withAnswersOf_eq {u t : State} {outs : List Out} (h : Drives u t outs) : withAnswersOf t u = t := by
  obtain ⟨new, -, ht⟩ := h
  rw [ht]
  rfl

theorem Drives.map_outOf_tr {u t : State} {outs : List Out} (h : Drives u t outs) :
    t.tr.map outOf = u.tr.map outOf ++ outs := by
  obtain ⟨new, hnew, htr, -⟩ := h.tr_buserr
  rw [htr, List.map_append, hnew]

/-- The state with other answers to come (R67). -/
def withBus (busIn : List Ack) (draws : Nat) (s : State) : State := { s with busIn := busIn, draws := draws }

section
variable (busIn : List Ack) (draws : Nat) (s : State) (i : Instr)

theorem requestOuts_withBus : requestOuts (withBus busIn draws s) i = requestOuts s i := by
  cases i <;> rfl

theorem registersAfter_withBus : registersAfter (withBus busIn draws s) i = withBus busIn draws (registersAfter s i) := by
  cases i with
  | printstr text => cases text <;> rfl
  | _ => rfl

/-- A request completes alike with other answers to come: the same registers, the same outputs. -/
theorem exec_withBus_completes :
    Completes i (withBus busIn draws s) (withBus busIn draws (registersAfter s i)) (requestOuts s i) := by
  have h := exec_completes i (withBus busIn draws s)
  rwa [registersAfter_withBus, requestOuts_withBus] at h

end

/-- Two runs that put the same outputs on the bus, from states that differ in the answers to come alone, leave states that
differ in nothing but what the answers may touch. -/
theorem Drives.withAnswersOf_withBus {u t t' : State} {busIn : List Ack} {draws : Nat} {outs : List Out}
    (h : Drives u t outs) (h' : Drives (withBus busIn draws u) t' outs) : withAnswersOf t t' = t :=
  calc withAnswersOf t t'
      = withAnswersOf t (withAnswersOf t' (withBus busIn draws u)) := by rw [h'.withAnswersOf_eq]
    _ = withAnswersOf t u := rfl
    _ = t := h.withAnswersOf_eq

/-- Settles O39: the request completes with the same registers and outputs whatever the answers to come
(`exec_withBus_completes`), and the outputs leave only the answers and BUSERR open. -/
theorem busAnswersOnlySetBuserr : Obligations.BusAnswersOnlySetBuserr := by
  intro i s busIn draws
  obtain ⟨t, ht, hdrives⟩ := exec_completes i s
  obtain ⟨t', ht', hdrives'⟩ := exec_withBus_completes busIn draws s i
  refine ⟨t, t', ht, ht', ?_, hdrives.withAnswersOf_withBus hdrives'⟩
  rw [hdrives.map_outOf_tr, hdrives'.map_outOf_tr]
  rfl

/-! ## The line operand (R70) -/

/-- The two terms of the offset, by the line as a number. -/
theorem lineOffset_eq (line : Byte) :
    lineOffset line =
      (if line.toNat % 2 = 1 then 0x40 else 0x00) + (if line.toNat / 2 % 2 = 1 then 0x14 else 0x00) := by
  simp [lineOffset, BitVec.getLsbD, Nat.testBit_eq_decide_div_mod_eq]

/-- Settles O23: the line modulo 4 fixes both conditions of `lineOffset_eq`. -/
theorem lineOperandSelectsOffset : Obligations.LineOperandSelectsOffset := by
  intro line
  rw [lineOffset_eq]
  refine ⟨fun h => ?_, fun h => ?_, fun h => ?_, fun h => ?_⟩
  · rw [if_neg (by omega), if_neg (by omega)]; rfl
  · rw [if_pos (by omega), if_neg (by omega)]; rfl
  · rw [if_neg (by omega), if_pos (by omega)]; rfl
  · rw [if_pos (by omega), if_pos (by omega)]; rfl

end Sys2Proof.Machine

/-! The request encoding and the port that reads it (spec/30_encoding.md): the decoder and the encoder agree (R91 to R97),
the port runs what it decodes (R95, R202, R203), and every byte written is one of R99. -/

namespace Sys2Proof.Machine

/-! ## PRINTSTR's text ends at its first 0x00 (R97) -/

@[simp] theorem textOk_cons (c : Byte) (cs : List Byte) : textOk (c :: cs) = true ↔ c ≠ 0 ∧ textOk cs = true := by
  simp [textOk]

/-- What `splitText` finds is a text with no 0x00, and the bytes are that text, the terminator and the bytes after it. -/
theorem splitText_eq_some {bytes text after : List Byte} (h : splitText bytes = some (text, after)) :
    textOk text = true ∧ bytes = text ++ 0x00 :: after := by
  induction bytes generalizing text with
  | nil => cases h
  | cons b rest ih =>
    unfold splitText at h
    split_ifs at h with hb
    · cases h; exact ⟨rfl, by rw [hb]; rfl⟩
    · split at h
      · next text' after' hrest =>
        cases h
        obtain ⟨htext, hbytes⟩ := ih hrest
        exact ⟨(textOk_cons b text').mpr ⟨hb, htext⟩, by rw [hbytes]; rfl⟩
      · cases h

/-! ## The decoder and the encoder agree -/

theorem decodeAfter_opPrintstr {bytes text after : List Byte} (h : splitText bytes = some (text, after)) :
    decodeAfter opPrintstr bytes = .ok (.printstr text, after) := by
  simp only [decodeAfter, opPrintstr, BitVec.reduceToNat, h]

/-- Settles O1: PRINTSTR by its terminator (`splitText_append`); the bytes of every other request are as many as the
decoder's branch for its opcode takes. -/
theorem encodeThenDecodeIsIdentity : Obligations.EncodeThenDecodeIsIdentity := by
  intro i rest hwf
  cases i with
  | printstr text =>
    have hsplit : splitText ((text ++ [0x00]) ++ rest) = some (text, rest) := by
      rw [List.append_assoc]
      exact splitText_append hwf rest
    exact decodeAfter_opPrintstr hsplit
  | _ => rfl

/-- What the decoder reads after an opcode byte is the operands of a well-formed request, and the bytes after them. -/
theorem decodeAfter_operands {op : Byte} {bytes rest : List Byte} {i : Instr}
    (h : decodeAfter op bytes = .ok (i, rest)) : i.wf = true ∧ bytes = i.operands ++ rest := by
  unfold decodeAfter at h
  split at h
  case h_21 =>
    split at h
    · next text after hsplit =>
      cases h
      obtain ⟨htext, hbytes⟩ := splitText_eq_some hsplit
      exact ⟨htext, by rw [hbytes, Instr.operands, List.append_assoc]; rfl⟩
    · cases h
  case h_4 | h_17 | h_20 | h_22 | h_23 =>
    split at h
    · cases h; exact ⟨rfl, rfl⟩
    · cases h
  case h_24 => cases h
  all_goals cases h; exact ⟨rfl, rfl⟩

/-- Settles O2: the opcode byte by `decodeAfter_opcode`, the bytes after it by `decodeAfter_operands`. -/
theorem decodeReadsOnlyEncodings : Obligations.DecodeReadsOnlyEncodings := by
  intro bytes rest i h
  cases bytes with
  | nil => cases h
  | cons op bytes =>
    have hop : i.opcode = op := decodeAfter_opcode h
    obtain ⟨hwf, hbytes⟩ := decodeAfter_operands h
    exact ⟨hwf, by rw [hbytes, encode, hop]; rfl⟩

/-- Settles O4: the decoder's last branch is the reserved one; the others answer a request or `truncated`. -/
theorem reservedOpcodesAreRejected : Obligations.ReservedOpcodesAreRejected := by
  intro op rest
  rw [decode]
  constructor
  · intro h
    unfold decodeAfter at h
    split at h
    case h_4 | h_17 | h_20 | h_21 | h_22 | h_23 => split at h <;> cases h
    case h_24 => simp only [imp_false] at *; omega
    all_goals cases h
  · intro h
    unfold decodeAfter
    split
    case h_24 => rfl
    all_goals omega

/-- The first 0x00 of a PRINTSTR is its terminator (R97). -/
theorem findIdx?_encode_printstr {text : List Byte} (h : textOk text = true) :
    (encode (.printstr text)).findIdx? (· == 0) = some (text.length + 1) := by
  have htext : text.findIdx? (· == 0#8) = none :=
    List.findIdx?_eq_none_iff.mpr fun c hc => by simpa using (List.all_eq_true.mp h) c hc
  simp [encode, Instr.opcode, Instr.operands, List.findIdx?_cons, List.findIdx?_append, htext]

/-- Settles O5: `opcodeFits` for the opcode byte and the fixed lengths, `findIdx?_encode_printstr` for PRINTSTR's end. -/
theorem requestLengthFollowsOpcode : Obligations.RequestLengthFollowsOpcode := by
  intro i
  obtain ⟨hhead, -, hlength⟩ := opcodeFits i
  refine ⟨List.cons_ne_nil _ _, hhead, fun hi => hlength (opcode_ne_opPrintstr hi), ?_⟩
  rintro text rfl
  exact ⟨by simp [encode, Instr.operands], findIdx?_encode_printstr⟩

/-- Settles O3: nine closed words, evaluated. -/
theorem opcodeMapWordsDecode : Obligations.OpcodeMapWordsDecode := by
  unfold Obligations.OpcodeMapWordsDecode
  decide

/-! ## The port runs what it decodes -/

theorem takeOpcode_opPrintstr (s : State) : takeOpcode opPrintstr s = .next (setRx .stream (preinitCheck s)) := rfl

theorem takeStream_zero (s : State) : takeStream 0 s = .next (setRx .idle s) := rfl

theorem takeStream_character {c : Byte} (h : c ≠ 0) (s : State) :
    takeStream c s = .next (setRx (.exec (.printstrChar c) .stream) s) := if_neg h

/-- Settles O6: `step_exec`, and `step_idle` on PRINTSTR's opcode byte. -/
theorem stepRunsDecodedRequest : Obligations.StepRunsDecodedRequest :=
  ⟨fun _ _ _ hrx => step_exec hrx, fun _ _ hrx hreq => (step_idle hrx hreq).trans (takeOpcode_opPrintstr _)⟩

/-- Settles O10: `step_stream` on the terminator and on a character. -/
theorem streamTakesCharactersUntilZero : Obligations.StreamTakesCharactersUntilZero := by
  intro s b rest hrx hreq
  rw [step_stream hrx hreq]
  refine ⟨?_, fun hb => takeStream_character hb _⟩
  rintro rfl
  exact takeStream_zero _

/-- A character of PRINTSTR takes two steps: it is received, then written (R203). -/
theorem run_stream_character {c : Byte} (hc : c ≠ 0) (rest : List Byte) (s : State) (n : Nat) :
    Sys2Proof.core.run (n + 2) (setRx .stream (setReq (c :: rest) s)) =
      Sys2Proof.core.run n (setRx .stream (setReq rest (writeChar c s))) := by
  have hreceive : step (setRx .stream (setReq (c :: rest) s)) =
      .next (setRx (.exec (.printstrChar c) .stream) (setReq rest s)) :=
    (step_stream rfl rfl).trans (takeStream_character hc _)
  have hwrite : step (setRx (.exec (.printstrChar c) .stream) (setReq rest s)) =
      .next (setRx .stream (setReq rest (writeChar c s))) := by
    rw [step_exec rfl, execJob, writeChar_setRx, writeChar_setReq]; rfl
  rw [run_succ hreceive, run_succ hwrite]

/-- The characters of a PRINTSTR and its terminator, taken in `STREAM`, write the characters and lead to `IDLE`. -/
theorem run_stream {text : List Byte} (htext : textOk text = true) (rest : List Byte) (s : State) :
    Sys2Proof.core.run (2 * text.length + 1) (setRx .stream (setReq (text ++ 0x00 :: rest) s)) =
      .next (setRx .idle (setReq rest (writeChars text s))) := by
  induction text generalizing s with
  | nil => exact (run_one _).trans ((step_stream rfl rfl).trans (takeStream_zero _))
  | cons c cs ih =>
    obtain ⟨hc, hcs⟩ := (textOk_cons c cs).mp htext
    have hlength : 2 * (c :: cs).length + 1 = 2 * cs.length + 1 + 2 := by rw [List.length_cons]; omega
    rw [hlength, List.cons_append, run_stream_character hc, ih hcs, writeChars]

theorem exec_printstr_setReq (text rest : List Byte) (s : State) :
    exec (.printstr text) (setReq rest s) = .next (setReq rest (writeChars text (preinitCheck s))) := by
  rw [exec, execPrintstr, preinitCheck_setReq, writeChars_setReq]

/-- Settles O8: the opcode byte makes the check, and `run_stream` takes the rest. -/
theorem printstrRunsFromItsBytes : Obligations.PrintstrRunsFromItsBytes := by
  intro text rest s htext hrx hreq
  have hbytes : s.req = opPrintstr :: (text ++ 0x00 :: rest) := by
    rw [hreq, encode, Instr.operands, List.cons_append, List.append_assoc]; rfl
  have hstep := (step_idle hrx hbytes).trans (takeOpcode_opPrintstr _)
  rw [preinitCheck_setReq] at hstep
  rw [run_succ hstep, run_stream htext]
  exact (congrArg (withRx .idle) (exec_printstr_setReq text rest s)).symm

/-! ## The bytes on the bus (R99) -/

/-- A write to `DEV_ADDR` with R/W low that carries the backlight bit `bl`; a delay is none (R72, R131, R137). -/
def Out.ToExpander (d : DevAddr) (bl : Bool) : Out → Prop
  | .w a b => a = d ∧ b.getLsbD 1 = false ∧ b.getLsbD 3 = bl
  | .d _ => True

theorem delayOut_toExpander (d : DevAddr) (bl : Bool) (ns : Nat) : ∀ o ∈ [Out.d ns], o.ToExpander d bl :=
  List.forall_mem_singleton.mpr trivial

/-- A byte with R/W low is one of R99's, by its Enable bit: the two halves of a pulse (a backlight write is the second
of the nibble 0x0 in command mode). -/
theorem isExpanderByte_of_bits {bl : Bool} {b : Byte} (hrw : b.getLsbD 1 = false) (hbl : b.getLsbD 3 = bl) :
    IsExpanderByte bl b := by
  subst hbl
  by_cases hen : b.getLsbD 2 = true
  · refine .inl ⟨b.extractLsb' 4 4, b.getLsbD 0, ?_⟩
    revert b; decide
  · refine .inr (.inl ⟨b.extractLsb' 4 4, b.getLsbD 0, ?_⟩)
    revert b; decide

theorem getLsbD_backlightBit {s : State} (hw : s.par.wired) :
    (backlightBit s).getLsbD 1 = false ∧ (backlightBit s).getLsbD 3 = s.bl := by
  obtain ⟨-, -, hbl, -⟩ := hw
  cases h : s.bl <;> simp [backlightBit, h, hbl]

section
variable {s : State} (hw : s.par.wired)
include hw

theorem pulseOuts_toExpander {v : Byte} (hrw : v.getLsbD 1 = false) (hbl : v.getLsbD 3 = false) :
    ∀ o ∈ pulseOuts s v, o.ToExpander s.devAddr s.bl := by
  have ⟨hen, _⟩ := hw
  obtain ⟨hrw', hbl'⟩ := getLsbD_backlightBit hw
  simp [pulseOuts, Out.ToExpander, hen, -BitVec.getLsbD_eq_getElem, hrw, hbl, hrw', hbl']

theorem sendOuts_toExpander (v : Byte) (m : Mode) : ∀ o ∈ sendOuts s v m, o.ToExpander s.devAddr s.bl := by
  have ⟨_, _, _, hrs⟩ := hw
  refine List.forall_mem_append.mpr ⟨pulseOuts_toExpander hw ?_ ?_, pulseOuts_toExpander hw ?_ ?_⟩ <;>
    cases m <;> simp [highNibble, lowNibble, modeBit, hrs]

theorem bytesOuts_toExpander (i : Instr) : ∀ o ∈ bytesOuts s i, o.ToExpander s.devAddr s.bl := by
  intro o ho
  obtain ⟨x, -, hx⟩ := List.mem_flatMap.mp ho
  exact sendOuts_toExpander hw x.2 x.1 o hx

theorem recoveryOuts_toExpander (hc : s.par.coded) : ∀ o ∈ recoveryOuts s, o.ToExpander s.devAddr s.bl := by
  have hpulse : ∀ o ∈ pulseOuts s (s.par.codes.functionSet ||| s.par.codes.eightBit), o.ToExpander s.devAddr s.bl :=
    pulseOuts_toExpander hw (by rw [hc]; decide) (by rw [hc]; decide)
  simp only [recoveryOuts, List.forall_mem_append]
  exact ⟨⟨⟨⟨⟨hpulse, delayOut_toExpander _ _ _⟩, hpulse⟩, delayOut_toExpander _ _ _⟩, hpulse⟩, delayOut_toExpander _ _ _⟩

/-- Every write of a request goes to the expander, with the backlight bit that the request leaves. -/
theorem requestOuts_toExpander (hc : s.par.coded) (i : Instr) :
    ∀ o ∈ requestOuts s i, o.ToExpander s.devAddr (blAfter s i) := by
  have hbytes := bytesOuts_toExpander hw i
  cases i with
  | init =>
    have hswitch : ∀ o ∈ pulseOuts s (s.par.codes.functionSet ||| s.par.codes.fourBit), o.ToExpander s.devAddr s.bl :=
      pulseOuts_toExpander hw (by rw [hc]; decide) (by rw [hc]; decide)
    simp only [requestOuts, List.forall_mem_append]
    exact ⟨⟨⟨recoveryOuts_toExpander hw hc, hswitch⟩, hbytes⟩, delayOut_toExpander _ _ _⟩
  | clear | home => exact List.forall_mem_append.mpr ⟨hbytes, delayOut_toExpander _ _ _⟩
  | backlight =>
    obtain ⟨-, -, hbl, -⟩ := hw
    exact List.forall_mem_singleton.mpr ⟨rfl, by rw [hbl]; rfl, by rw [hbl]; rfl⟩
  | nobacklight => exact List.forall_mem_singleton.mpr ⟨rfl, rfl, rfl⟩
  | _ => exact hbytes

end

/-- Settles O41: a decoder move writes nothing, and a request writes its outputs (`requestOuts_toExpander`). -/
theorem onlyExpanderBytesAreWritten : Obligations.OnlyExpanderBytesAreWritten := by
  intro s t hw hc h
  rcases step_cases h with ⟨-, rx, illop, preinit, rfl⟩ | ⟨job, ret, u, -, rfl, hdrives⟩
  · exact ⟨[], (List.append_nil _).symm, fun _ _ _ hmem => absurd hmem List.not_mem_nil⟩
  · obtain ⟨new, hnew, htr, -⟩ := hdrives.tr_buserr
    have hbl : u.bl = blAfter s job.instr := hdrives.kept.bl
    refine ⟨new, htr, fun a b answer hmem => ?_⟩
    have hout : Out.w a b ∈ requestOuts s job.instr := hnew ▸ List.mem_map_of_mem (f := outOf) hmem
    obtain ⟨ha, hrw, hlight⟩ := requestOuts_toExpander hw hc job.instr _ hout
    rw [← hbl] at hlight
    exact ⟨ha, isExpanderByte_of_bits hrw hlight, hrw, hlight⟩

end Sys2Proof.Machine

/-! The sequencer's primitives (spec/40_sequencer.md): the events of one write, one pulse and one sent byte (R130, R132,
R136), what the controller latches of them (R138), and that every step keeps the bus's protocol (R133, R134, R139). -/

namespace Sys2Proof.Machine

/-! ## The events of a write, a pulse and a sent byte -/

/-- Settles O16: the two answers differ in BUSERR alone. -/
theorem expWriteSendsValueWithBacklight : Obligations.ExpWriteSendsValueWithBacklight := by
  intro v s
  unfold expWrite
  cases h : nextAnswer s <;> simp [busWrite, backlightBit, raise, markFault, h]

@[simp] theorem outOf_eq_w {e : Event} {a : DevAddr} {b : Byte} : outOf e = .w a b ↔ ∃ answer, e = .w a b answer := by
  cases e <;> simp [outOf]

@[simp] theorem outOf_eq_d {e : Event} {ns : Nat} : outOf e = .d ns ↔ e = .d ns := by
  cases e <;> simp [outOf]

@[simp] theorem nacked_w (a : DevAddr) (b : Byte) (answer : Ack) :
    nacked (.w a b answer) = decide (answer = .nack) := by
  cases answer <;> rfl

@[simp] theorem nacked_d (ns : Nat) : nacked (.d ns) = false := rfl

theorem ne_nack_iff {a : Ack} : a ≠ .nack ↔ a = .ack := by
  cases a <;> simp

/-- The events of one pulse of `v` (R132), its writes answered `a1` and `a2`. -/
def pulseEvents (s : State) (v : Byte) (a1 a2 : Ack) : List Event :=
  [.w s.devAddr (v ||| s.par.enMask ||| backlightBit s) a1, .d s.par.tEn, .w s.devAddr (lowByte s v) a2, .d s.par.tCmd]

theorem map_outOf_eq_pulseOuts {s : State} {v : Byte} {new : List Event} (h : new.map outOf = pulseOuts s v) :
    ∃ a1 a2, new = pulseEvents s v a1 a2 := by
  simpa [pulseOuts, pulseEvents, lowByte, List.map_eq_cons_iff] using h

/-- Settles O17: `write4` puts one pulse on the bus and changes nothing else (`write4_drives`). -/
theorem enablePulseIsHighWaitLowSettle : Obligations.EnablePulseIsHighWaitLowSettle := by
  intro v s
  obtain ⟨new, hnew, ht⟩ := write4_drives v s
  obtain ⟨a1, a2, rfl⟩ := map_outOf_eq_pulseOuts hnew
  refine ⟨a1, a2, (write4 v s).busIn, (write4 v s).draws, ht.trans ?_⟩
  have hbuserr : (pulseEvents s v a1 a2).any nacked = (decide (a1 = .nack) || decide (a2 = .nack)) := by
    simp [pulseEvents]
  rw [hbuserr, ← Bool.or_assoc]
  rfl

/-- The events of one sent byte: the pulse of its high nibble, then that of its low nibble (R135). -/
def sendEvents (s : State) (v : Byte) (m : Mode) (a1 a2 a3 a4 : Ack) : List Event :=
  pulseEvents s (highNibble v ||| modeBit s.par m) a1 a2 ++ pulseEvents s (lowNibble v ||| modeBit s.par m) a3 a4

theorem send_tr (v : Byte) (m : Mode) (s : State) :
    ∃ a1 a2 a3 a4, (send v m s).tr = s.tr ++ sendEvents s v m a1 a2 a3 a4 := by
  obtain ⟨new, hnew, htr, -⟩ := (send_drives v m s).tr_buserr
  obtain ⟨first, second, rfl, hfirst, hsecond⟩ := List.map_eq_append_iff.mp hnew
  obtain ⟨a1, a2, rfl⟩ := map_outOf_eq_pulseOuts hfirst
  obtain ⟨a3, a4, rfl⟩ := map_outOf_eq_pulseOuts hsecond
  exact ⟨a1, a2, a3, a4, htr⟩

/-! ## A sent byte at the wiring of R98 -/

/-- The nibble `n` on the data lines of an expander byte (R98). -/
def dataLines (n : BitVec 4) : Byte := n.setWidth 8 <<< 4

theorem highNibble_eq_dataLines (v : Byte) : highNibble v = dataLines (v.extractLsb' 4 4) := by
  revert v; decide

theorem lowNibble_eq_dataLines (v : Byte) : lowNibble v = dataLines (v.extractLsb' 0 4) := by
  revert v; decide

section
variable {s : State} (hw : s.par.wired)
include hw

theorem modeBit_wired (m : Mode) : modeBit s.par m = if m = .data then 1 else 0 := by
  obtain ⟨-, -, -, hrs⟩ := hw
  cases m <;> simp [modeBit, hrs]

theorem backlightBit_wired : backlightBit s = (if s.bl = true then (1 : Byte) else 0) <<< 3 := by
  obtain ⟨-, -, hbl, -⟩ := hw
  cases h : s.bl <;> simp [backlightBit, h, hbl]

/-- A nibble's Enable-low byte is its data lines, the backlight bit and RS: the pulse clears no other bit. -/
theorem lowByte_dataLines (n : BitVec 4) (m : Mode) :
    lowByte s (dataLines n ||| modeBit s.par m) = dataLines n ||| backlightBit s ||| modeBit s.par m := by
  have ⟨hen, _⟩ := hw
  rw [lowByte, hen, backlightBit_wired hw, modeBit_wired hw]
  cases s.bl <;> cases m <;> revert n <;> decide

theorem enableBit_lowByte (v : Byte) : enableBit (lowByte s v) = false := by
  simp [lowByte_eq hw, enableBit]

theorem latchOf_lowByte (n : BitVec 4) (m : Mode) :
    latchOf (lowByte s (dataLines n ||| modeBit s.par m)) = ⟨n, decide (m = .data)⟩ := by
  rw [lowByte_dataLines hw, backlightBit_wired hw, modeBit_wired hw]
  cases s.bl <;> cases m <;> revert n <;> decide

theorem pulseEvents_dataLines (n : BitVec 4) (m : Mode) (a1 a2 : Ack) :
    pulseEvents s (dataLines n ||| modeBit s.par m) a1 a2 =
      [.w s.devAddr (dataLines n ||| backlightBit s ||| 0x04 ||| modeBit s.par m) a1, .d s.par.tEn,
       .w s.devAddr (dataLines n ||| backlightBit s ||| modeBit s.par m) a2, .d s.par.tCmd] := by
  have ⟨hen, _⟩ := hw
  have hhigh : dataLines n ||| modeBit s.par m ||| s.par.enMask ||| backlightBit s =
      dataLines n ||| backlightBit s ||| 0x04 ||| modeBit s.par m := by
    rw [hen]; ac_rfl
  rw [pulseEvents, hhigh, lowByte_dataLines hw]

/-- An acknowledged pulse makes one latch, at its falling edge, whatever was written before it: it begins with Enable
high (R138). -/
theorem latches_pulseEvents (v : Byte) (before : Byte × Ack) (rest : List Event) :
    latches before (pulseEvents s v .ack .ack ++ rest) = latchOf (lowByte s v) :: latches (lowByte s v, .ack) rest := by
  simp [pulseEvents, latches, enableBit_high hw, enableBit_lowByte hw]

end

/-- Settles O18: the two pulses of `send_tr`, with their bytes at the wiring of R98 written out. -/
theorem sentByteIsTwoPulsesHighNibbleFirst : Obligations.SentByteIsTwoPulsesHighNibbleFirst := by
  intro v m s hw bl rs h l
  obtain ⟨a1, a2, a3, a4, htr⟩ := send_tr v m s
  refine ⟨a1, a2, a3, a4, ?_⟩
  rw [htr, sendEvents, highNibble_eq_dataLines, lowNibble_eq_dataLines, pulseEvents_dataLines hw,
    pulseEvents_dataLines hw, modeBit_wired hw, backlightBit_wired hw]
  rfl

theorem ack_of_sendEvents {s : State} {v : Byte} {m : Mode} {a1 a2 a3 a4 : Ack}
    (h : ∀ e ∈ sendEvents s v m a1 a2 a3 a4, nacked e = false) : a1 = .ack ∧ a2 = .ack ∧ a3 = .ack ∧ a4 = .ack := by
  simpa [sendEvents, pulseEvents, ne_nack_iff, and_assoc] using h

/-- Settles O43: each of the two pulses makes one latch (`latches_pulseEvents`), of its nibble and the mode's RS. -/
theorem acknowledgedSendIsTwoLatches : Obligations.AcknowledgedSendIsTwoLatches := by
  intro v m s before hw
  obtain ⟨a1, a2, a3, a4, htr⟩ := send_tr v m s
  refine ⟨_, htr, fun hacked => ?_⟩
  obtain ⟨rfl, rfl, rfl, rfl⟩ := ack_of_sendEvents hacked
  rw [sendEvents, latches_pulseEvents hw, ← List.append_nil (pulseEvents s (lowNibble v ||| _) _ _),
    latches_pulseEvents hw, highNibble_eq_dataLines, lowNibble_eq_dataLines, latchOf_lowByte hw, latchOf_lowByte hw]
  rfl

/-! ## The protocol of the bus -/

/-- Settles O49: the trace after a step is one of those that `step_tells` answers. -/
theorem everyStepKeepsBusProtocol : Obligations.EveryStepKeepsBusProtocol := by
  intro s t hwired hlegal hcoded haccepts h
  exact (step_tells ⟨hwired, hlegal, hcoded, haccepts⟩ h).onProtocol.accepts

end Sys2Proof.Machine

/-! INIT (spec/41_init.md): that it completes with the recovery sequence and the baselines (R150 to R153), and the number
of its events, its writes and the sum of its delays (R155). -/

namespace Sys2Proof.Machine

/-! ## What INIT completes with (R150 to R153) -/

theorem requestOuts_init (s : State) :
    requestOuts s .init = initOuts s (functionSetByte s.par.codes (computedFunc s.par.codes s.lines))
      (displayControlByte s.par.codes (baselineCtrl s.par)) (entryModeByte s.par.codes (baselineEntry s.par)) := by
  simp only [requestOuts, bytesOuts, bytesSent, initOuts, List.flatMap_cons, List.flatMap_nil, List.append_assoc,
    List.nil_append]

theorem recoveryByte_coded {c : Codes} (hc : c = Config.codes) : recoveryByte c = 0x30 := by rw [hc]; rfl

theorem switchByte_coded {c : Codes} (hc : c = Config.codes) : switchByte c = 0x20 := by rw [hc]; rfl

theorem initOuts_coded {s : State} (hc : s.par.coded) (fs dc em : Byte) :
    initOuts s fs dc em =
      pulseOuts s 0x30 ++ [.d s.par.tInit1] ++ pulseOuts s 0x30 ++ [.d s.par.tInit2] ++ pulseOuts s 0x30 ++
        [.d s.par.tInit3] ++ pulseOuts s 0x20 ++ sendOuts s fs .command ++ sendOuts s dc .command ++
        sendOuts s em .command ++ sendOuts s 0x01 .command ++ [.d s.par.tClear] := by
  have hclear : s.par.codes.clearDisplay = 0x01 := by rw [hc]; rfl
  rw [← recoveryByte_coded hc, ← switchByte_coded hc, ← hclear]
  rfl

/-- Settles O19: the outputs of `init_completes` are `initOuts` (`requestOuts_init`), here with the default constants
too. -/
theorem initRunsRecoveryAndSetsBaselines : Obligations.InitRunsRecoveryAndSetsBaselines := by
  refine ⟨rfl, fun s => ?_, fun s hc => ⟨initOuts_coded hc, computedFunc_coded hc s.lines, ?_⟩, by decide, by decide⟩
  · have h := init_completes s
    rw [requestOuts_init] at h
    exact h
  · rw [hc]
    decide

/-! ## The events of some outputs, counted (R155) -/

/-- How many bus writes an output is. -/
def Out.writes : Out → Nat
  | .w _ _ => 1
  | .d _ => 0

/-- The time, in ns, that an output waits. -/
def Out.wait : Out → Nat
  | .w _ _ => 0
  | .d ns => ns

theorem writeCount_eq_sum (new : List Event) : writeCount new = ((new.map outOf).map Out.writes).sum := by
  induction new with
  | nil => rfl
  | cons e rest ih => cases e <;> simp [writeCount, outOf, Out.writes, ih, Nat.add_comm]

theorem totalDelay_eq_sum (new : List Event) : totalDelay new = ((new.map outOf).map Out.wait).sum := by
  induction new with
  | nil => rfl
  | cons e rest ih => cases e <;> simp [totalDelay, outOf, Out.wait, ih]

theorem length_eq_of_map_outOf {new : List Event} {outs : List Out} (h : new.map outOf = outs) :
    new.length = outs.length := by
  rw [← h, List.length_map]

section
variable (s : State)

@[simp] theorem length_pulseOuts (v : Byte) : (pulseOuts s v).length = 4 := rfl

@[simp] theorem writes_pulseOuts (v : Byte) : ((pulseOuts s v).map Out.writes).sum = 2 := rfl

@[simp] theorem wait_pulseOuts (v : Byte) : ((pulseOuts s v).map Out.wait).sum = s.par.tEn + s.par.tCmd := by
  simp [pulseOuts, Out.wait]

@[simp] theorem length_sendOuts (v : Byte) (m : Mode) : (sendOuts s v m).length = 8 := rfl

@[simp] theorem writes_sendOuts (v : Byte) (m : Mode) : ((sendOuts s v m).map Out.writes).sum = 4 := rfl

@[simp] theorem wait_sendOuts (v : Byte) (m : Mode) :
    ((sendOuts s v m).map Out.wait).sum = 2 * (s.par.tEn + s.par.tCmd) := by
  simp [sendOuts, Nat.two_mul]

theorem length_bytesOuts (i : Instr) : (bytesOuts s i).length = (bytesSent s i).length * 8 := by
  simp [bytesOuts, List.length_flatMap]

/-- A measure that is `n` on every sent byte is `n` for each of a request's bytes. -/
theorem sum_bytesOuts {f : Out → Nat} {n : Nat} (h : ∀ v m, ((sendOuts s v m).map f).sum = n) (i : Instr) :
    ((bytesOuts s i).map f).sum = (bytesSent s i).length * n := by
  simp [bytesOuts, List.flatMap_def, List.map_flatten, List.sum_flatten, Function.comp_def, h]

theorem writes_bytesOuts (i : Instr) : ((bytesOuts s i).map Out.writes).sum = (bytesSent s i).length * 4 :=
  sum_bytesOuts s (writes_sendOuts s) i

theorem wait_bytesOuts (i : Instr) :
    ((bytesOuts s i).map Out.wait).sum = (bytesSent s i).length * (2 * (s.par.tEn + s.par.tCmd)) :=
  sum_bytesOuts s (wait_sendOuts s) i

theorem length_bytesSent_init : (bytesSent s .init).length = 4 := rfl

theorem length_recoveryOuts : (recoveryOuts s).length = 15 := rfl

theorem writes_recoveryOuts : ((recoveryOuts s).map Out.writes).sum = 6 := rfl

theorem wait_recoveryOuts :
    ((recoveryOuts s).map Out.wait).sum =
      3 * (s.par.tEn + s.par.tCmd) + s.par.tInit1 + s.par.tInit2 + s.par.tInit3 := by
  simp only [recoveryOuts, List.map_append, List.sum_append, wait_pulseOuts, List.map_singleton, List.sum_singleton,
    Out.wait]
  omega

theorem writes_requestOuts_init : ((requestOuts s .init).map Out.writes).sum = 24 := by
  simp [requestOuts, writes_recoveryOuts, writes_bytesOuts, length_bytesSent_init, Out.writes]

theorem wait_requestOuts_init :
    ((requestOuts s .init).map Out.wait).sum =
      12 * (s.par.tEn + s.par.tCmd) + s.par.tInit1 + s.par.tInit2 + s.par.tInit3 + s.par.tClear := by
  simp only [requestOuts, List.map_append, List.sum_append, wait_recoveryOuts, wait_pulseOuts, wait_bytesOuts,
    length_bytesSent_init, List.map_singleton, List.sum_singleton, Out.wait]
  omega

end

/-- Settles O20: the events split as the outputs `requestOuts` do, and an event counts as its output does. -/
theorem initEmitsFiftyTwoEvents : Obligations.InitEmitsFiftyTwoEvents := by
  refine ⟨fun s => ?_, rfl⟩
  obtain ⟨t, ht, hdrives⟩ := init_completes s
  obtain ⟨new, hnew, htr, -⟩ := hdrives.tr_buserr
  have hwrites : writeCount new = 24 := by rw [writeCount_eq_sum, hnew, writes_requestOuts_init]
  have hdelay := totalDelay_eq_sum new
  rw [hnew, wait_requestOuts_init] at hdelay
  obtain ⟨rest, last, rfl, hrest, hlast⟩ := List.map_eq_append_iff.mp hnew
  obtain ⟨front, sends, rfl, hfront, hsends⟩ := List.map_eq_append_iff.mp hrest
  obtain ⟨recovery, switch, rfl, hrecovery, hswitch⟩ := List.map_eq_append_iff.mp hfront
  have hrecoveryLen : recovery.length = 15 := (length_eq_of_map_outOf hrecovery).trans (length_recoveryOuts s)
  have hswitchLen : switch.length = 4 := (length_eq_of_map_outOf hswitch).trans (length_pulseOuts s _)
  have hsendsLen : sends.length = 32 := (length_eq_of_map_outOf hsends).trans (length_bytesOuts s .init)
  have hlastEq : last = [.d s.par.tClear] := by simpa [List.map_eq_cons_iff] using hlast
  refine ⟨t, recovery, switch, sends, last, ht, htr, hrecoveryLen, hswitchLen, hsendsLen, by rw [hlastEq]; rfl,
    hrecovery, hswitch, hlastEq, ?_, hwrites, hdelay⟩
  simp [hrecoveryLen, hswitchLen, hsendsLen, hlastEq]

end Sys2Proof.Machine

/-! Display, cursor and entry-mode requests (spec/42_display_commands.md): what each completes with (R160 to R176), and what
any sequence of them makes of the flag registers (R177). -/

namespace Sys2Proof.Machine

/-! ## CLEAR, HOME, SETPOS and the display shifts (R160 to R162, R171, R172) -/

/-- Settles O21: what `clear_completes` and `home_completes` say, with the outputs written out. -/
theorem clearAndHomeSendAndWait : Obligations.ClearAndHomeSendAndWait :=
  ⟨rfl, rfl, rfl, rfl, rfl, rfl, fun s => ⟨clear_completes s, home_completes s⟩⟩

/-- The address as a number: the sum of the column and the offset, modulo 256. -/
theorem ddramAddr_eq_ofNat (line col : Byte) :
    ddramAddr line col = BitVec.ofNat 8 ((col.toNat +
      ((if line.toNat % 2 = 1 then 0x40 else 0x00) + (if line.toNat / 2 % 2 = 1 then 0x14 else 0x00))) % 256) := by
  rw [ddramAddr, lineOffset_eq]
  split <;> split <;> bv_omega

/-- Settles O22: `exec_completes` for SETPOS, whose address is the one of `ddramAddr_eq_ofNat`. -/
theorem setposSendsDdramAddress : Obligations.SetposSendsDdramAddress := by
  refine ⟨rfl, fun line col s => ⟨rfl, ?_⟩⟩
  rw [← ddramAddr_eq_ofNat]
  exact exec_completes (.setpos line col) s

/-- Settles O25: what `exec_completes` says of the two requests, with the outputs written out. -/
theorem scrollRequestsSendShiftCommand : Obligations.ScrollRequestsSendShiftCommand :=
  ⟨rfl, rfl, fun s => ⟨exec_completes .scrollLeft s, exec_completes .scrollRight s⟩, rfl, rfl⟩

/-! ## The toggles of CTRL and ENTRY (R164 to R170, R173 to R176) -/

theorem displayControl_range {v : Byte} (h : v &&& 0xF8 = 0) :
    0x08 ≤ (0x08 ||| v).toNat ∧ (0x08 ||| v).toNat ≤ 0x0F := by
  have hkind : isDisplayControl (.command, 0x08 ||| v) = true := (displayControlByte_kind rfl h).1
  rw [isDisplayControl_command, decide_eq_true_iff] at hkind
  omega

theorem entryMode_range {v : Byte} (h : v &&& 0xFC = 0) :
    0x04 ≤ (0x04 ||| v).toNat ∧ (0x04 ||| v).toNat ≤ 0x07 := by
  have hkind : isEntryMode (.command, 0x04 ||| v) = true := (entryModeByte_kind rfl h).1
  rw [isEntryMode_command, decide_eq_true_iff] at hkind
  omega

/-- A request is a toggle of CTRL if it completes as one; the range then holds since the reserved bits stay 0. -/
theorem controlRequest_of_completes {i : Instr} {op value : Byte} {flag : Codes → Byte} {set : Bool}
    (hop : encode i = [op]) (hvalue : flag Config.codes = value)
    (hctrl : ∀ s : State, ctrlAfter s i = withFlag s.ctrl (flag s.par.codes) set)
    (hcompletes : ∀ s : State, Completes i s { s with ctrl := ctrlAfter s i, faults := preinitMark s }
      (sendOuts s (s.par.codes.displayControl ||| ctrlAfter s i) .command)) :
    ControlRequest i op flag value set := by
  refine ⟨hop, hvalue, rfl, fun s => ?_⟩
  rw [← hctrl s]
  exact ⟨hcompletes s, fun hc h => displayControl_range (ctrlAfter_reserved hc h i)⟩

/-- A request is a toggle of ENTRY if it completes as one; the range then holds since the reserved bits stay 0. -/
theorem entryRequest_of_completes {i : Instr} {op value : Byte} {flag : Codes → Byte} {set : Bool}
    (hop : encode i = [op]) (hvalue : flag Config.codes = value)
    (hentry : ∀ s : State, entryAfter s i = withFlag s.entry (flag s.par.codes) set)
    (hcompletes : ∀ s : State, Completes i s { s with entry := entryAfter s i, faults := preinitMark s }
      (sendOuts s (s.par.codes.entryModeSet ||| entryAfter s i) .command)) :
    EntryRequest i op flag value set := by
  refine ⟨hop, hvalue, rfl, fun s => ?_⟩
  rw [← hentry s]
  exact ⟨hcompletes s, fun hc h => entryMode_range (entryAfter_reserved hc h i)⟩

/-- Settles O24: each toggle completes with its flag set or cleared (`exec_completes`). -/
theorem displayTogglesUpdateAndSendCtrl : Obligations.DisplayTogglesUpdateAndSendCtrl :=
  ⟨controlRequest_of_completes rfl rfl (fun _ => rfl) (exec_completes .display),
    controlRequest_of_completes rfl rfl (fun _ => rfl) (exec_completes .nodisplay),
    controlRequest_of_completes rfl rfl (fun _ => rfl) (exec_completes .cursor),
    controlRequest_of_completes rfl rfl (fun _ => rfl) (exec_completes .nocursor),
    controlRequest_of_completes rfl rfl (fun _ => rfl) (exec_completes .blink),
    controlRequest_of_completes rfl rfl (fun _ => rfl) (exec_completes .noblink)⟩

/-- Settles O26: each entry-mode request completes with its flag set or cleared (`exec_completes`). -/
theorem entryRequestsUpdateAndSendEntry : Obligations.EntryRequestsUpdateAndSendEntry :=
  ⟨entryRequest_of_completes rfl rfl (fun _ => rfl) (exec_completes .leftToRight),
    entryRequest_of_completes rfl rfl (fun _ => rfl) (exec_completes .rightToLeft),
    entryRequest_of_completes rfl rfl (fun _ => rfl) (exec_completes .autoscroll),
    entryRequest_of_completes rfl rfl (fun _ => rfl) (exec_completes .noautoscroll)⟩

/-! ## What a sequence of requests makes of the flags (R177) -/

/-- A request that is not INIT and names no flag keeps the flag registers. -/
theorem flagsAfter_of_flagEffect_none (s : State) {i : Instr} (hinit : i ≠ .init) (hflag : flagEffect i = none) :
    ctrlAfter s i = s.ctrl ∧ entryAfter s i = s.entry ∧ funcAfter s i = s.func := by
  cases i with
  | init => exact absurd rfl hinit
  | display | nodisplay | cursor | nocursor | blink | noblink | leftToRight | rightToLeft | autoscroll | noautoscroll =>
    cases hflag
  | _ => exact ⟨rfl, rfl, rfl⟩

/-- Settles O55: the request completes (`exec_completes`) with the registers of `flagsAfter_of_flagEffect_none`. -/
theorem otherRequestsKeepFlags : Obligations.OtherRequestsKeepFlags := by
  intro i s hinit hflag
  obtain ⟨t, ht, hdrives⟩ := exec_completes i s
  obtain ⟨hctrl, hentry, hfunc⟩ := flagsAfter_of_flagEffect_none s hinit hflag
  have hk := hdrives.kept
  exact ⟨t, ht, hk.ctrl.trans hctrl, hk.entry.trans hentry, hk.func.trans hfunc⟩

/-- Where bit `n` of the flag is 1 exactly under `c`, it is set or cleared exactly under `c`. -/
theorem getLsbD_withFlag {flag : Byte} {n : Nat} {c : Prop} [Decidable c] (hn : n < 8)
    (hflag : flag.getLsbD n = decide c) (r : Byte) (set : Bool) :
    (withFlag r flag set).getLsbD n = if c then set else r.getLsbD n := by
  cases set with
  | true =>
    rw [withFlag, if_pos rfl, BitVec.getLsbD_or, hflag]
    by_cases hc : c <;> simp [hc]
  | false =>
    rw [withFlag, if_neg Bool.false_ne_true, BitVec.getLsbD_and, BitVec.getLsbD_not, hflag]
    by_cases hc : c <;> simp [hc, hn]

/-- The places of the flags of CTRL (R27, R101), numbered as in `flagEffect`. -/
theorem getLsbD_ctrlFlags : ∀ n < 3, Config.codes.displayOn.getLsbD n = decide (2 = n) ∧
    Config.codes.cursorOn.getLsbD n = decide (1 = n) ∧ Config.codes.blinkOn.getLsbD n = decide (0 = n) := by
  decide

/-- The places of the flags of ENTRY (R28, R101), numbered as in `flagEffect`. -/
theorem getLsbD_entryFlags : ∀ n < 2, Config.codes.leftToRight.getLsbD n = decide (9 = n + 8) ∧
    Config.codes.autoscroll.getLsbD n = decide (8 = n + 8) := by
  decide

/-- Each bit of CTRL after one request but INIT. -/
theorem getLsbD_ctrlAfter {s : State} (hc : s.par.coded) {i : Instr} (hinit : i ≠ .init) {n : Nat} (hn : n < 3) :
    (ctrlAfter s i).getLsbD n = lastEffect n [i] (s.ctrl.getLsbD n) := by
  obtain ⟨hdisplay, hcursor, hblink⟩ := getLsbD_ctrlFlags n hn
  rw [← hc] at hdisplay hcursor hblink
  have hn8 : n < 8 := by omega
  cases i with
  | init => exact absurd rfl hinit
  | display => exact getLsbD_withFlag hn8 hdisplay s.ctrl true
  | nodisplay => exact getLsbD_withFlag hn8 hdisplay s.ctrl false
  | cursor => exact getLsbD_withFlag hn8 hcursor s.ctrl true
  | nocursor => exact getLsbD_withFlag hn8 hcursor s.ctrl false
  | blink => exact getLsbD_withFlag hn8 hblink s.ctrl true
  | noblink => exact getLsbD_withFlag hn8 hblink s.ctrl false
  | leftToRight | rightToLeft | autoscroll | noautoscroll => exact (if_neg (by omega)).symm
  | _ => rfl

/-- Each bit of ENTRY after one request but INIT. -/
theorem getLsbD_entryAfter {s : State} (hc : s.par.coded) {i : Instr} (hinit : i ≠ .init) {n : Nat} (hn : n < 2) :
    (entryAfter s i).getLsbD n = lastEffect (n + 8) [i] (s.entry.getLsbD n) := by
  obtain ⟨hdirection, hautoscroll⟩ := getLsbD_entryFlags n hn
  rw [← hc] at hdirection hautoscroll
  have hn8 : n < 8 := by omega
  cases i with
  | init => exact absurd rfl hinit
  | leftToRight => exact getLsbD_withFlag hn8 hdirection s.entry true
  | rightToLeft => exact getLsbD_withFlag hn8 hdirection s.entry false
  | autoscroll => exact getLsbD_withFlag hn8 hautoscroll s.entry true
  | noautoscroll => exact getLsbD_withFlag hn8 hautoscroll s.entry false
  | _ => rfl

theorem lastEffect_cons (n : Nat) (i : Instr) (is : List Instr) (before : Bool) :
    lastEffect n (i :: is) before = lastEffect n is (lastEffect n [i] before) := rfl

theorem execAll_cons {i : Instr} {s t : State} (h : exec i s = .next t) (is : List Instr) :
    execAll (i :: is) s = execAll is t := by
  rw [execAll, h]

/-- Requests but INIT complete one after the other: each flag bit is what the last that named it made of it, and the
reserved bits stay 0. -/
theorem execAll_flags {is : List Instr} (hinit : ∀ i ∈ is, i ≠ .init) {s : State} (hc : s.par.coded)
    (hctrl : s.ctrl &&& 0xF8 = 0) (hentry : s.entry &&& 0xFC = 0) :
    ∃ t, execAll is s = .next t ∧
      (∀ n, n < 3 → t.ctrl.getLsbD n = lastEffect n is (s.ctrl.getLsbD n)) ∧
      (∀ n, n < 2 → t.entry.getLsbD n = lastEffect (n + 8) is (s.entry.getLsbD n)) ∧
      t.ctrl &&& 0xF8 = 0 ∧ t.entry &&& 0xFC = 0 := by
  induction is generalizing s with
  | nil => exact ⟨s, rfl, fun _ _ => rfl, fun _ _ => rfl, hctrl, hentry⟩
  | cons i is ih =>
    obtain ⟨hi, his⟩ := List.forall_mem_cons.mp hinit
    obtain ⟨u, hu, hdrives⟩ := exec_completes i s
    have hk := hdrives.kept
    have huc : u.ctrl = ctrlAfter s i := hk.ctrl
    have hue : u.entry = entryAfter s i := hk.entry
    have hcu : u.par.coded := (congrArg Params.codes hk.par).trans hc
    have hctrlu : u.ctrl &&& 0xF8 = 0 := huc ▸ ctrlAfter_reserved hc hctrl i
    have hentryu : u.entry &&& 0xFC = 0 := hue ▸ entryAfter_reserved hc hentry i
    obtain ⟨t, ht, htc, hte, hreserved⟩ := ih his hcu hctrlu hentryu
    refine ⟨t, (execAll_cons hu is).trans ht, fun n hn => ?_, fun n hn => ?_, hreserved⟩
    · rw [htc n hn, huc, getLsbD_ctrlAfter hc hi hn, ← lastEffect_cons]
    · rw [hte n hn, hue, getLsbD_entryAfter hc hi hn, ← lastEffect_cons]

theorem getLsbD_baselineCtrl (p : Params) {n : Nat} (hn : n < 3) :
    (baselineCtrl p).getLsbD n = p.initCtrl.getLsbD n := by
  have hn8 : n < 8 := by omega
  rw [baselineCtrl, BitVec.getLsbD_setWidth, decide_eq_true hn8, Bool.true_and]

theorem getLsbD_baselineEntry (p : Params) {n : Nat} (hn : n < 2) :
    (baselineEntry p).getLsbD n = p.initEntry.getLsbD n := by
  have hn8 : n < 8 := by omega
  rw [baselineEntry, BitVec.getLsbD_setWidth, decide_eq_true hn8, Bool.true_and]

/-- Settles O54: INIT sets the baselines, and from there the history decides each bit (`execAll_flags`). -/
theorem toggleHistoryDeterminesFlags : Obligations.ToggleHistoryDeterminesFlags := by
  intro is s hc his
  have hinit : ∀ i ∈ is, i ≠ .init := fun i hi h => by
    have hsome := his i hi
    rw [h] at hsome
    cases hsome
  obtain ⟨u, hu, hdrives⟩ := init_completes s
  have hk := hdrives.kept
  have huc : u.ctrl = baselineCtrl s.par := hk.ctrl
  have hue : u.entry = baselineEntry s.par := hk.entry
  have hcu : u.par.coded := (congrArg Params.codes hk.par).trans hc
  obtain ⟨t, ht, htc, hte, hreserved⟩ := execAll_flags hinit hcu (huc ▸ baselineCtrl_reserved s.par)
    (hue ▸ baselineEntry_reserved s.par)
  refine ⟨t, (execAll_cons hu is).trans ht, fun n hn => ?_, fun n hn => ?_, hreserved⟩
  · rw [htc n hn, huc, getLsbD_baselineCtrl s.par hn]
  · rw [hte n hn, hue, getLsbD_baselineEntry s.par hn]

end Sys2Proof.Machine

/-! Glyph programming and character data (spec/43_data_and_glyphs.md): what CREATECHAR, WRITE and PRINTSTR complete with (R200
to R202), and how a character of PRINTSTR executes (R203). -/

namespace Sys2Proof.Machine

/-- The CGRAM address as a number: eight rows to a slot, the slot modulo 8. -/
theorem cgramAddr_eq_ofNat (slot : Byte) : cgramAddr slot = BitVec.ofNat 8 (slot.toNat % 8 * 8) := by
  have hmask : (slot &&& 0x07).toNat = slot.toNat % 8 := by
    rw [BitVec.toNat_and]
    exact Nat.and_two_pow_sub_one_eq_mod slot.toNat 3
  apply BitVec.eq_of_toNat_eq
  rw [cgramAddr, BitVec.toNat_shiftLeft, hmask, Nat.shiftLeft_eq, BitVec.toNat_ofNat]

/-- Settles O27: `exec_completes` for CREATECHAR, whose address is the one of `cgramAddr_eq_ofNat`. -/
theorem createcharSendsSlotAndRows : Obligations.CreatecharSendsSlotAndRows := by
  refine ⟨rfl, fun slot r0 r1 r2 r3 r4 r5 r6 r7 s => ⟨rfl, ?_⟩⟩
  rw [← cgramAddr_eq_ofNat]
  exact exec_completes (.createchar slot ⟨r0, r1, r2, r3, r4, r5, r6, r7⟩) s

/-- Settles O28: `exec_completes` for WRITE, with its one byte written out. -/
theorem writeSendsCharacter : Obligations.WriteSendsCharacter :=
  fun c s => ⟨rfl, exec_completes (.write c) s⟩

/-- The empty text marks no CGSTALE, any other marks it iff ASPACE is CGRAM. -/
theorem faultsAfter_printstr (text : List Byte) (s : State) :
    faultsAfter s (.printstr text) =
      { preinitMark s with cgstale := s.faults.cgstale || (decide (s.aspace = .cgram) && !text.isEmpty) } := by
  cases text with
  | nil => simp [faultsAfter, preinitMark]
  | cons c cs => simp [faultsAfter]

theorem requestOuts_printstr (text : List Byte) (s : State) :
    requestOuts s (.printstr text) = text.flatMap fun c => sendOuts s c .data :=
  List.flatMap_map ..

/-- Settles O29: `exec_completes` for PRINTSTR, with its marks and its outputs as the two lemmas before say. -/
theorem printstrSendsEveryCharacter : Obligations.PrintstrSendsEveryCharacter := by
  intro text s
  refine ⟨rfl, ?_⟩
  rw [← faultsAfter_printstr, ← requestOuts_printstr]
  exact exec_completes (.printstr text) s

/-- Settles O9: in `EXEC` BUSY is 1 (`busy_iff`), and the character's job is WRITE's rule (`execJob_eq_exec`). -/
theorem printstrCharacterIsWriteBody : Obligations.PrintstrCharacterIsWriteBody := by
  intro s c hrx
  have hbusy : busy s = true := (busy_iff s).mpr ⟨_, _, hrx⟩
  have hrule : execJob (.printstrChar c) s = exec (.write c) s := execJob_eq_exec (.printstrChar c) s
  exact ⟨(status_bits s).1.trans hbusy, (step_exec hrx).trans (congrArg (withRx .stream) hrule)⟩

end Sys2Proof.Machine


/-! Backlight and compatibility requests (spec/44_backlight_and_compat.md): what each completes with (R220 to R223), and that a
backlight write latches nothing (R225). -/

namespace Sys2Proof.Machine

/-- Settles O31: each request's rule answers the state it is given. -/
theorem drawRequestsDoNothing : Obligations.DrawRequestsDoNothing :=
  fun _ _ _ _ _ => ⟨rfl, rfl, rfl, rfl⟩

/-- Settles O30: what `exec_completes` says of the two requests, with the outputs written out. -/
theorem backlightRequestsWriteOneByte : Obligations.BacklightRequestsWriteOneByte :=
  ⟨rfl, rfl, rfl, fun s => ⟨exec_completes .backlight s, exec_completes .nobacklight s⟩⟩

/-! ## What one write latches (R138) -/

/-- With Enable low there is no edge to fall, whatever is written next. -/
theorem latches_write_of_enable_low {b0 : Byte} (hlow : enableBit b0 = false) (a0 : Ack) (a : DevAddr) (b : Byte)
    (answer : Ack) : latches (b0, a0) [.w a b answer] = [] := by
  simp [latches, hlow]

/-- An acknowledged write with Enable low, after an acknowledged one with Enable high, is a falling edge. -/
theorem latches_falling_edge {b0 b : Byte} (hhigh : enableBit b0 = true) (hlow : enableBit b = false) (a : DevAddr) :
    latches (b0, .ack) [.w a b .ack] = [latchOf b] := by
  simp [latches, hhigh, hlow]

/-! ## The backlight write (R225) -/

/-- At the wiring of R98 a backlight request puts one write on the bus, of no more than the backlight bit. -/
theorem requestOuts_backlight_wired {i : Instr} {s : State} (hw : s.par.wired) (hi : i = .backlight ∨ i = .nobacklight) :
    ∃ b, requestOuts s i = [.w s.devAddr b] ∧ (b = 0x00 ∨ b = 0x08) := by
  obtain ⟨-, -, hbl, -⟩ := hw
  rcases hi with rfl | rfl
  · exact ⟨s.par.blMask, rfl, .inr hbl⟩
  · exact ⟨0x00, rfl, .inl rfl⟩

theorem backlightByte_enable_latch {b : Byte} (hb : b = 0x00 ∨ b = 0x08) :
    enableBit b = false ∧ latchOf b = ⟨0, false⟩ := by
  rcases hb with rfl | rfl <;> decide

/-- Settles O44: the one write has Enable low, so it latches only as the falling edge of an Enable that was high. -/
theorem backlightWriteLatchesNothing : Obligations.BacklightWriteLatchesNothing := by
  intro i s b0 a0 hw hi
  obtain ⟨t, hexec, hdrives⟩ := exec_completes i s
  obtain ⟨new, hnew, htr, -⟩ := hdrives.tr_buserr
  obtain ⟨b, houts, hb⟩ := requestOuts_backlight_wired hw hi
  obtain ⟨answer, rfl⟩ : ∃ answer, new = [.w s.devAddr b answer] := by
    simpa [houts, List.map_eq_cons_iff] using hnew
  obtain ⟨hlow, hlatch⟩ := backlightByte_enable_latch hb
  refine ⟨t, b, answer, hexec, htr, hlow, fun h0 => latches_write_of_enable_low h0 _ _ _ _,
    latches_write_of_enable_low hlow answer, ?_⟩
  rintro hhigh rfl rfl
  rw [latches_falling_edge hhigh hlow, hlatch]

end Sys2Proof.Machine

/-! Exceptions (spec/60_exceptions.md): a proper decoder state always steps (R240), what sets ILLOP (R244), and the sticky
bits that a request sets (R243 to R247, R249). -/

namespace Sys2Proof.Machine

/-! ## A proper decoder state always steps (R240) -/

theorem isReserved_iff (op : Byte) : isReserved op = true ↔ op.toNat = 0 ∨ 0x18 ≤ op.toNat := by
  simp [isReserved, ← BitVec.toNat_inj]

theorem isReserved_eq_false_iff (op : Byte) : isReserved op = false ↔ 1 ≤ op.toNat ∧ op.toNat ≤ 0x17 := by
  rw [← Bool.not_eq_true, isReserved_iff]
  omega

/-- As many operand bytes as a proper opcode's length asks for are one request with nothing left over (R91, R92). -/
theorem decode_of_length {op : Byte} {ops : List Byte} (hreserved : isReserved op = false) (hop : op ≠ opPrintstr)
    (hlen : ops.length + 1 = requestLength op) : ∃ i, decode (op :: ops) = .ok (i, []) := by
  rw [decode]
  unfold decodeAfter
  split
  case h_21 hn => exact absurd (BitVec.eq_of_toNat_eq hn) hop
  case h_24 =>
    have hrange := (isReserved_eq_false_iff op).mp hreserved
    simp only [imp_false] at *
    omega
  all_goals simp only [requestLength, ‹op.toNat = _›] at hlen
  case h_4 =>
    match ops, hlen with
    | [_, _], _ => exact ⟨_, rfl⟩
  case h_17 =>
    match ops, hlen with
    | [_, _, _, _, _, _, _, _, _], _ => exact ⟨_, rfl⟩
  case h_20 =>
    match ops, hlen with
    | [_], _ => exact ⟨_, rfl⟩
  case h_22 | h_23 =>
    match ops, hlen with
    | [_, _, _, _], _ => exact ⟨_, rfl⟩
  all_goals
    match ops, hlen with
    | [], _ => exact ⟨_, rfl⟩

theorem enterExec_progress {op : Byte} {ops : List Byte} (hreserved : isReserved op = false) (hop : op ≠ opPrintstr)
    (hlen : ops.length + 1 = requestLength op) (s : State) : ∃ t, enterExec (op :: ops) s = .next t := by
  obtain ⟨i, hdecode⟩ := decode_of_length hreserved hop hlen
  exact ⟨_, enterExec_of_decode hdecode s⟩

theorem takeOpcode_progress (b : Byte) (s : State) : ∃ t, takeOpcode b s = .next t := by
  unfold takeOpcode
  split_ifs with hreserved hprintstr hone
  · exact ⟨_, rfl⟩
  · exact ⟨_, rfl⟩
  · have hlen : ([] : List Byte).length + 1 = requestLength b := hone.symm
    exact enterExec_progress (by simpa using hreserved) hprintstr hlen s
  · exact ⟨_, rfl⟩

theorem takeOperand_progress {s : State} {op : Byte} {buf : List Byte} {k : Nat} (hok : RxOk s)
    (hrx : s.rx = .collect op buf k) (b : Byte) (u : State) : ∃ t, takeOperand op buf k b u = .next t := by
  simp only [RxOk, hrx] at hok
  obtain ⟨hreserved, hop, -, hsum⟩ := hok
  unfold takeOperand
  split_ifs with hone
  · have hlen : (buf ++ [b]).length + 1 = requestLength op := by
      rw [List.length_append, List.length_singleton]; omega
    exact enterExec_progress hreserved hop hlen u
  · exact ⟨_, rfl⟩

theorem takeStream_progress (b : Byte) (s : State) : ∃ t, takeStream b s = .next t := by
  unfold takeStream
  split_ifs <;> exact ⟨_, rfl⟩

theorem takeByte_progress {take : Byte → State → Host.Outcome State Fault Refusal}
    (htake : ∀ b u, ∃ t, take b u = .next t) (s : State) : ∃ t, takeByte take s = .next t := by
  unfold takeByte
  split
  · exact ⟨_, rfl⟩
  · exact htake _ _

theorem step_progress {s : State} (hok : RxOk s) : ∃ t, step s = .next t := by
  cases hrx : s.rx with
  | idle =>
    simp only [step, sequencerStep, hrx]
    exact takeByte_progress takeOpcode_progress s
  | collect op buf k =>
    simp only [step, sequencerStep, hrx]
    exact takeByte_progress (takeOperand_progress hok hrx) s
  | stream =>
    simp only [step, sequencerStep, hrx]
    exact takeByte_progress takeStream_progress s
  | exec job ret =>
    obtain ⟨u, hu, -⟩ := exec_completes job.instr s
    rw [step_exec hrx, execJob_eq_exec, hu]
    exact ⟨_, rfl⟩

/-- Settles O48: a proper decoder state steps (`step_progress`), and the step keeps it proper (`step_rxOk`). -/
theorem bridgeNeverStops : Obligations.BridgeNeverStops := by
  intro s hok
  obtain ⟨t, ht⟩ := step_progress hok
  exact ⟨t, ht, step_rxOk hok ht⟩

/-! ## The sticky bits that a request sets (R243 to R247, R249) -/

/-- Which sticky bits a request marks, but for BUSERR: PREINIT and CGSTALE by its checks, REINIT by INIT's own. -/
theorem faultsAfter_eq (s : State) (i : Instr) : faultsAfter s i = { s.faults with
    preinit := s.faults.preinit || (decide (s.metaState = .uninit) && checksInit i)
    reinit := s.faults.reinit || (decide (s.metaState = .oper) && decide (i = .init))
    cgstale := s.faults.cgstale || (decide (s.aspace = .cgram) && writesCharacter i) } := by
  cases i with
  | printstr text => cases text <;> simp [faultsAfter, preinitMark, checksInit, writesCharacter]
  | _ => simp [faultsAfter, preinitMark, checksInit, writesCharacter]

/-- Settles O32: BUSERR by the events of the request (`Drives.tr_buserr`), the other bits by `faultsAfter_eq`. -/
theorem requestsSetExactlyTheirFaultBits : Obligations.RequestsSetExactlyTheirFaultBits := by
  intro i s
  obtain ⟨t, ht, hdrives⟩ := exec_completes i s
  obtain ⟨new, -, htr, hbuserr⟩ := hdrives.tr_buserr
  have hk := hdrives.kept
  have hfaults : (registersAfter s i).faults = _ := faultsAfter_eq s i
  refine ⟨t, new, ht, htr, ?_, ?_, ?_, ?_, ?_⟩
  · rw [hbuserr, hfaults]
    refine congrArg (s.faults.buserr || new.any ·) (funext fun e => ?_)
    cases e <;> simp
  · rw [hk.illop, hfaults]
  · rw [hk.preinit, hfaults]
  · rw [hk.reinit, hfaults]
  · rw [hk.cgstale, hfaults]

/-! ## What sets ILLOP (R244) -/

theorem takeOpcode_reserved {b : Byte} (h : isReserved b = true) (s : State) :
    takeOpcode b s = .next (raise .illop s) := by
  rw [takeOpcode, if_pos h]

theorem enterExec_faults {bytes : List Byte} {s t : State} (h : enterExec bytes s = .next t) : t.faults = s.faults := by
  obtain ⟨i, rfl⟩ := enterExec_next h
  rfl

theorem takeOpcode_illop {b : Byte} {s t : State} (hreserved : isReserved b = false) (h : takeOpcode b s = .next t) :
    t.faults.illop = s.faults.illop := by
  rw [takeOpcode, hreserved, if_neg Bool.false_ne_true] at h
  split_ifs at h
  · cases h; rw [writeChars, preinitCheck_eq]; rfl
  · rw [enterExec_faults h]
  · cases h; rfl

theorem takeOperand_faults {op b : Byte} {buf : List Byte} {k : Nat} {s t : State}
    (h : takeOperand op buf k b s = .next t) : t.faults = s.faults := by
  unfold takeOperand at h
  split_ifs at h
  · exact enterExec_faults h
  · cases h; rfl

theorem takeStream_faults {b : Byte} {s t : State} (h : takeStream b s = .next t) : t.faults = s.faults := by
  unfold takeStream at h
  split_ifs at h <;> cases h <;> rfl

theorem takeByte_faults {take : Byte → State → Host.Outcome State Fault Refusal} {s t : State}
    (htake : ∀ {b : Byte} {u : State}, take b u = .next t → t.faults = u.faults)
    (h : takeByte take s = .next t) : t.faults = s.faults := by
  unfold takeByte at h
  split at h
  · cases h; rfl
  · rw [htake h, setReq_faults]

theorem step_illop_of_not_idle {s t : State} (hidle : s.rx ≠ .idle) (h : step s = .next t) :
    t.faults.illop = s.faults.illop := by
  cases hrx : s.rx with
  | idle => exact absurd hrx hidle
  | collect op buf k =>
    simp only [step, sequencerStep, hrx] at h
    rw [takeByte_faults takeOperand_faults h]
  | stream =>
    simp only [step, sequencerStep, hrx] at h
    rw [takeByte_faults takeStream_faults h]
  | exec job ret =>
    obtain ⟨u, rfl, hdrives⟩ := step_exec_completes hrx h
    have hillop : (faultsAfter s job.instr).illop = s.faults.illop := by rw [faultsAfter_eq]
    exact hdrives.kept.illop.trans hillop

/-- Settles O13: `takeOpcode` on a reserved byte raises ILLOP alone, and on a proper one writes no ILLOP; nor does a step
in any other decoder state. -/
theorem reservedByteSetsIllopAlone : Obligations.ReservedByteSetsIllopAlone := by
  refine ⟨fun s b rest hrx hreq hb => ?_, fun s t b rest hrx hreq hb h => ?_, fun s t => step_illop_of_not_idle⟩
  · rw [step_idle hrx hreq, takeOpcode_reserved ((isReserved_iff b).mpr hb)]
    rfl
  · rw [step_idle hrx hreq] at h
    exact takeOpcode_illop (s := setReq rest s) ((isReserved_eq_false_iff b).mpr hb) h

end Sys2Proof.Machine

/-! Reset and hazards (spec/70_reset_and_hazards.md): what RESET leaves (R280), what it keeps of a request that it cuts
(R282), and how many writes and how much delay each request takes (R289). -/

namespace Sys2Proof.Machine

/-! ## The reset values (R280) -/

/-- STATUS reads 0x00 in `IDLE` before INIT with no sticky bit set: each of its bits is then 0 (R32). -/
theorem status_eq_zero {s : State} (hrx : s.rx = .idle) (hmeta : s.metaState = .uninit) (hf : s.faults = Faults.none) :
    s.status = 0x00 := by
  have hbusy : busy s = false := by rw [busy, hrx]
  have hoper : oper s = false := by rw [oper, hmeta]; rfl
  rw [State.status, hbusy, hoper, hf]
  rfl

/-- Settles O14: the registers are those of `State.resetWith`, and STATUS reads 0x00 with them (`status_eq_zero`). -/
theorem resetSetsEveryRegister : Obligations.ResetSetsEveryRegister :=
  ⟨⟨rfl, rfl, rfl, rfl, rfl, rfl, status_eq_zero rfl rfl rfl, rfl, rfl, rfl⟩,
    fun _ _ _ => ⟨rfl, rfl, rfl, rfl, rfl, rfl, rfl, rfl, rfl, status_eq_zero rfl rfl rfl, rfl, rfl, rfl⟩⟩

/-- Settles O46: `resetWith_inv`, for `State.reset` at the default parameters, which meet its premises. -/
theorem invariantHoldsAtReset : Obligations.InvariantHoldsAtReset :=
  ⟨fun st _ hw hl hc => resetWith_inv st hw hl hc, resetWith_inv Config.straps (by decide) (by decide) rfl⟩

/-! ## A RESET during a request (R282) -/

/-- The events emitted before a RESET after `n` of them are the first `n` of those that the step would append. -/
theorem emittedAtReset_exec {s t : State} {job : Job} {ret : Ret} {new : List Event} (hrx : s.rx = .exec job ret)
    (h : step s = .next t) (htr : t.tr = s.tr ++ new) (n : Nat) : s.emittedAtReset n = new.take n := by
  simp only [State.emittedAtReset, hrx, h, htr, List.drop_left]

theorem hostReset_busIn (st : Straps) (n : Nat) (s : State) :
    (s.hostReset st n).busIn = s.busIn.drop (writeCount (s.emittedAtReset n)) :=
  takeAnswers_busIn _ s

theorem hostReset_draws (st : Straps) (n : Nat) (s : State) :
    (s.hostReset st n).draws = s.draws + (writeCount (s.emittedAtReset n) - s.busIn.length) :=
  takeAnswers_draws _ s

/-- An INIT before which no INIT has run leaves REINIT as it is (R246). -/
theorem exec_init_reinit_of_uninit {s t : State} (hmeta : s.metaState = .uninit) (h : exec .init s = .next t) :
    t.faults.reinit = s.faults.reinit := by
  obtain ⟨u, hu, hdrives⟩ := init_completes s
  cases hu.symm.trans h
  have hreinit : t.faults.reinit = (s.faults.reinit || decide (s.metaState = .oper)) := hdrives.kept.reinit
  simpa [hmeta] using hreinit

/-- Settles O15: RESET cuts the events of the request into the first `n` and the rest; the state after it is before
INIT, with no sticky bit set. -/
theorem resetCutsRequestAtEventBoundary : Obligations.ResetCutsRequestAtEventBoundary := by
  intro s t job ret n hrx h
  obtain ⟨new, htr⟩ := traceOnlyGrows s t h
  have hemitted : s.emittedAtReset n = new.take n := emittedAtReset_exec hrx h htr.symm n
  refine ⟨new.take n, new.drop n, ?_, by rw [State.traceAtReset, hemitted], ?_, fun st => ⟨?_, ?_, fun u hu => ?_⟩⟩
  · rw [List.append_assoc, List.take_append_drop, htr]
  · rcases Nat.le_total n new.length with hle | hge
    · exact .inl (List.length_take_of_le hle)
    · exact .inr ⟨List.drop_eq_nil_of_le hge, List.length_take_le n new⟩
  · rw [hostReset_busIn, hemitted]
  · rw [hostReset_draws, hemitted]
  · exact exec_init_reinit_of_uninit rfl hu

/-! ## The durations of the requests (R289) -/

theorem writes_requestOuts (s : State) (i : Instr) : ((requestOuts s i).map Out.writes).sum = tableWrites i := by
  cases i with
  | init => exact writes_requestOuts_init s
  | clear | home | backlight | nobacklight => rfl
  | printstr text =>
    calc ((bytesOuts s (.printstr text)).map Out.writes).sum
        = (bytesSent s (.printstr text)).length * 4 := writes_bytesOuts s _
      _ = text.length * 4 := by rw [bytesSent, List.length_map]
      _ = 4 * text.length := Nat.mul_comm _ _
  | _ => exact writes_bytesOuts s _

theorem wait_requestOuts (s : State) (i : Instr) : ((requestOuts s i).map Out.wait).sum = tableDelay s.par i := by
  have hbytes := wait_bytesOuts s i
  cases i with
  | init => exact wait_requestOuts_init s
  | clear | home => simp [requestOuts, hbytes, bytesSent, tableDelay, Out.wait]
  | backlight | nobacklight | drawHgraph | drawVgraph => rfl
  | createchar slot glyph =>
    calc ((bytesOuts s (.createchar slot glyph)).map Out.wait).sum
        = 9 * (2 * (s.par.tEn + s.par.tCmd)) := hbytes
      _ = 18 * (s.par.tEn + s.par.tCmd) := by omega
  | printstr text =>
    calc ((bytesOuts s (.printstr text)).map Out.wait).sum
        = (bytesSent s (.printstr text)).length * (2 * (s.par.tEn + s.par.tCmd)) := hbytes
      _ = text.length * (2 * (s.par.tEn + s.par.tCmd)) := by rw [bytesSent, List.length_map]
      _ = 2 * text.length * (s.par.tEn + s.par.tCmd) := by ring
  | _ => exact hbytes.trans (Nat.one_mul _)

/-- Settles O42: an event counts as its output does, and the outputs are `requestOuts`; the sums at the defaults are
closed arithmetic, but for PRINTSTR's factor; a reserved byte raises ILLOP alone. -/
theorem requestDurationsFollowTable : Obligations.RequestDurationsFollowTable := by
  refine ⟨fun i s => ?_, fun i => ?_, fun s b rest hrx hreq hb => ?_⟩
  · obtain ⟨t, ht, hdrives⟩ := exec_completes i s
    obtain ⟨new, hnew, htr, -⟩ := hdrives.tr_buserr
    refine ⟨t, new, ht, htr, ?_, ?_⟩
    · rw [writeCount_eq_sum, hnew, writes_requestOuts]
    · rw [totalDelay_eq_sum, hnew, wait_requestOuts]
  · cases i with
    | printstr text =>
      have hbyte : Config.params.tEn + Config.params.tCmd = 51000 := rfl
      simp only [tableDelay, hbyte]
      omega
    | _ => rfl
  · rw [step_idle hrx hreq, takeOpcode_reserved ((isReserved_iff b).mpr hb)]
    exact ⟨_, rfl, rfl⟩

end Sys2Proof.Machine

/-! The port (spec/10_state.md R34): a ready bridge that is offered no byte waits, which is the model's choice of log
entry 3. -/

namespace Sys2Proof.Machine

/-- No byte is taken from an empty port, whatever would be done with it. -/
theorem takeByte_of_req_nil (take : Byte → State → Host.Outcome State Fault Refusal) {s : State} (hreq : s.req = []) :
    takeByte take s = .next s := by
  rw [takeByte, hreq]

/-- Settles O12: outside `EXEC` a step only takes a byte from the port (`takeByte_of_req_nil`), and in `EXEC` BUSY is 1
(`busy_iff`). -/
theorem readyBridgeWaitsForHost : Obligations.ReadyBridgeWaitsForHost := by
  intro s hready hreq
  rw [(status_bits s).1] at hready
  cases hrx : s.rx with
  | exec job ret =>
    have hbusy : busy s = true := (busy_iff s).mpr ⟨job, ret, hrx⟩
    exact absurd hbusy (by simp [hready])
  | idle | collect _ _ _ | stream =>
    simp only [step, sequencerStep, hrx]
    exact takeByte_of_req_nil _ hreq

end Sys2Proof.Machine
